-- ==== Sys2Proof/Word.lean ====
section
/-! DEFINITION. The word types of TVP (spec/00_scope.md R9, R11, R16; spec/30_encoding.md R71, R76). -/

namespace Sys2Proof

/-- A 32-bit register or operand (00_scope.md R9: `W` = 32). As `u32` it is `toNat`, as `i32` it is
`toInt` (R11). -/
abbrev Word := BitVec 32

/-- A slot index, 0 to 3 (10_state.md R33: "A model should type both as a number in 0 to 3").
Its addition is the ring increment modulo 4. -/
abbrev SlotIx := Fin 4

/-- A command word, 68 bits (30_encoding.md R71). -/
abbrev CmdWord := BitVec 68

/-- A response word, 34 bits (30_encoding.md R76). -/
abbrev RspWord := BitVec 34

/-- `QUEUE_SLOTS` (00_scope.md R9). -/
def queueSlots : Nat := 4

/-- `IDX_W`, the storage width of `head` and `tail` (00_scope.md R9). It has no other observable
effect (10_state.md R33). -/
def idxWidth : Nat := 8

/-- A cursor as its 8-bit storage holds it: bits [7:2] are always 0 (10_state.md R29, R30). -/
def cursorBits (i : SlotIx) : BitVec 8 := BitVec.ofNat 8 i.val

/-- The integer part of a word read as Q8.24, bits [31:24] (00_scope.md R16). No rule of TVP uses it. -/
def q824Int (w : Word) : BitVec 8 := w.extractLsb' 24 8

/-- The fraction part of a word read as Q8.24, bits [23:0] (00_scope.md R16). No rule of TVP uses it. -/
def q824Frac (w : Word) : BitVec 24 := w.extractLsb' 0 24

end Sys2Proof
end

