-- ==== Sys2Proof/Syntax.lean ====
section
/-! DEFINITION. Ports, commands and the motion descriptor (spec/30_encoding.md R70, R72, R74;
spec/42_filler.md R130). -/

namespace Sys2Proof

/-- The two command ports (30_encoding.md R70): `P` for the producer, `C` for the consumer. -/
inductive Port where
  | P
  | C
  deriving DecidableEq, Repr, Inhabited

/-- The commands, one constructor for each row of spec/opcode_table.json, with the operands of
30_encoding.md R72. Fields that R72 calls ignored are not operands. -/
inductive Instr where
  /-- INIT, op 0x1 (42_filler.md R120). -/
  | init
  /-- PUT steps, speed, op 0x2 (42_filler.md R126). -/
  | put (steps speed : Word)
  /-- FULL, op 0x3 (40_queue.md R91). -/
  | full
  /-- EMPTY, op 0x4 (40_queue.md R90). -/
  | empty
  /-- GET clip, op 0x5 (41_velocity_engine.md R100). -/
  | get (clip : Bool)
  /-- BEGIN target_c, op 0x6 (42_filler.md R124). -/
  | beginDda (targetC : Word)
  /-- RESERVED_0, op 0x0 (30_encoding.md R78). -/
  | reserved0
  /-- RESERVED_7, op 0x7 (30_encoding.md R78). -/
  | reserved7
  /-- RESERVED_8_TO_F: `op` is the code presented, 0x8 to 0xF (30_encoding.md R78). -/
  | reserved8toF (op : BitVec 4)
  deriving DecidableEq, Repr

/-- The motion descriptor ("DDA") as TVP sees it (42_filler.md R130). It belongs to the external
collaborator; FILL reads and updates it for the duration of the call (10_state.md R36). -/
structure Descriptor where
  /-- The requested step count. -/
  totalSteps : Word
  /-- The requested speed, in the units of `curr_c`. -/
  targetC : Word
  /-- How many of the steps FILL has queued so far. -/
  queuedSteps : Word
  deriving DecidableEq, Repr, Inhabited

end Sys2Proof
end

