-- ==== Sys2Proof/WellFormed.lean ====
section
/-! DEFINITION. Which terms stand for something the hardware can be given. -/

namespace Sys2Proof

/-- A command is well formed when its fields are what its row's encoding admits: the row
RESERVED_8_TO_F holds the codes 0x8 to 0xF only (30_encoding.md R74, R78). Every 32-bit operand
value is admitted by the other rows (70_reset_and_hazards.md R191). -/
def Instr.wf : Instr → Bool
  | .init => true
  | .put _ _ => true
  | .full => true
  | .empty => true
  | .get _ => true
  | .beginDda _ => true
  | .reserved0 => true
  | .reserved7 => true
  | .reserved8toF op => decide (8 ≤ op.toNat)

/-- A descriptor is well formed when no more steps are queued than were requested (42_filler.md
R130; 43_phases_and_invariants.md R159). FILL runs on any descriptor; this is what it keeps. -/
def Descriptor.wf (d : Descriptor) : Bool := decide (d.queuedSteps ≤ d.totalSteps)

end Sys2Proof
end

