-- ==== Sys2Proof/Decode.lean ====
section
/-! DEFINITION. From command words to commands and back (spec/30_encoding.md R71, R72, R74, R75, R81). -/

namespace Sys2Proof

/-- `op`, bits [67:64] (R71). -/
def opField (w : CmdWord) : BitVec 4 := w.extractLsb' 64 4

/-- `A`, bits [63:32] (R71). -/
def aField (w : CmdWord) : Word := w.extractLsb' 32 32

/-- `B`, bits [31:0] (R71). -/
def bField (w : CmdWord) : Word := w.extractLsb' 0 32

/-- The command a word stands for, on any word (R74, R75): reserved codes become reserved commands,
never a neighbour. -/
def decode (w : CmdWord) : Instr :=
  match (opField w).toNat with
  | 0 => .reserved0
  | 1 => .init
  | 2 => .put (aField w) (bField w)
  | 3 => .full
  | 4 => .empty
  | 5 => .get ((bField w).getLsbD 0)
  | 6 => .beginDda (bField w)
  | 7 => .reserved7
  | _ => .reserved8toF (opField w)

/-- Why a number is no command word. -/
inductive DecodeRefusal where
  /-- It has a bit above bit 67, so it does not fit the 68 bits of R71. Safe: nothing runs. -/
  | wider68
  deriving DecidableEq, Repr

/-- A number read as a command word: refused by name when it does not fit in 68 bits. -/
def decodeBits (v : Nat) : Except DecodeRefusal Instr :=
  if v < 2 ^ 68 then .ok (decode (BitVec.ofNat 68 v)) else .error .wider68

/-- The word with the given fields (R71). -/
def wordOf (op : BitVec 4) (a b : Word) : CmdWord := op ++ a ++ b

/-- The operation code of a command (R74). -/
def opOf : Instr → BitVec 4
  | .reserved0 => 0x0
  | .init => 0x1
  | .put _ _ => 0x2
  | .full => 0x3
  | .empty => 0x4
  | .get _ => 0x5
  | .beginDda _ => 0x6
  | .reserved7 => 0x7
  | .reserved8toF op => op

/-- The word software writes for a command (R81): ignored fields are 0. -/
def encode : Instr → CmdWord
  | .init => wordOf 0x1 0 0
  | .put steps speed => wordOf 0x2 steps speed
  | .full => wordOf 0x3 0 0
  | .empty => wordOf 0x4 0 0
  | .get clip => wordOf 0x5 0 (if clip then 1 else 0)
  | .beginDda targetC => wordOf 0x6 0 targetC
  | .reserved0 => wordOf 0x0 0 0
  | .reserved7 => wordOf 0x7 0 0
  | .reserved8toF op => wordOf op 0 0

/-- The command read from an instruction whose bits are `w`, numbered as the opcode table numbers
them: bits from `nbits` up are 0. A command is one 68-bit word on a bus, with no byte order
(20_memory.md R59), so the number is the word. -/
def decodeTableWord (nbits w : Nat) : Option Instr :=
  match decodeBits (w % 2 ^ nbits) with
  | .ok i => some i
  | .error _ => none

end Sys2Proof
end

