-- ==== Sys2Proof/Config.lean ====
section
/-! DEFINITION. What the spec leaves to the platform: the implementation parameters of
spec/00_scope.md R10. Operations take a `Config` as an argument; the machine runs them at
`Config.platform`, of which nothing is known. -/

namespace Sys2Proof

/-- The parameters of 00_scope.md R10. The constraints R10 puts on them hold by construction: the
table has at least one word, the shift is below 32, and `Config.cStart` is at least `cMin`. -/
structure Config where
  /-- `ACCEL_P_SHIFT`, a natural number below 32; R10 and R56 give it the value 16, "a claim should
  not depend on it" (93_implementation_defined.md section 3). -/
  accelPShift : Fin 32
  /-- `accel_P[0]`. -/
  accelWord0 : Word
  /-- `accel_P[1]` and on. -/
  accelRest : List Word
  /-- `C_MIN`; default 0. -/
  cMin : Word
  /-- What the platform asks for as `C_START`; default 0. -/
  cStartAsked : Word
  /-- What the platform's `FILL_POLICY` proposes for a descriptor; `fillEntry`
  (Machine/Filler.lean) keeps it within R129's bound. -/
  fillProposal : Descriptor → Word × Word
  /-- `TICK_TIME`, the period of the external timer; used by no rule (60_exceptions.md R170). -/
  tickTime : Nat
  deriving Inhabited

/-- The parameters of the machine. OPAQUE: every claim holds whatever they are (log 1, 2, 6). -/
opaque Config.platform : Config

/-- The acceleration table `accel_P` (20_memory.md R54), never empty. -/
def Config.accelP (cfg : Config) : List Word := cfg.accelWord0 :: cfg.accelRest

/-- `ACCEL_TABLE_LEN` (00_scope.md R10), at least 1. -/
def Config.accelTableLen (cfg : Config) : Nat := cfg.accelP.length

/-- `C_START`, with R10's constraint `C_MIN ≤ C_START` built in: every legal pair arises, by
asking for it, and no illegal one does (log 2). -/
def Config.cStart (cfg : Config) : Word := if cfg.cStartAsked < cfg.cMin then cfg.cMin else cfg.cStartAsked

/-- `QUANTUM` = 2 × `TICK_TIME` (00_scope.md R9); used by no rule. -/
def Config.quantum (cfg : Config) : Nat := 2 * cfg.tickTime

end Sys2Proof
end

