-- ==== Sys2Proof/Machine/State.lean ====
section
/-! DEFINITION. The state of TVP: the planner's registers, the progress of the commands in flight, the
responses, the FILL call running, and what the agents do next (spec/10_state.md; spec/20_memory.md R62;
spec/30_encoding.md R70, R76; spec/42_filler.md R128). Plain data throughout. -/

namespace Sys2Proof.Machine

/-- The status of a response (30_encoding.md R76, 60_exceptions.md R161). -/
inductive Status where
  | ok
  | empty
  | full
  | err
  deriving DecidableEq, Repr

/-- A response: its status and its 32-bit data (30_encoding.md R76). -/
structure Response where
  status : Status
  data : Word
  deriving DecidableEq, Repr

/-- The registers of the one planner instance (10_state.md R20 to R34). -/
structure Planner where
  /-- R21. -/
  position : Word
  /-- R22. -/
  velocity : Word
  /-- R23. -/
  remainder : Word
  /-- R24, read as Q8.24. -/
  accelPerTick : Word
  /-- R25. -/
  currC : Word
  /-- R26. -/
  endC : Word
  /-- R31. -/
  accel : Bool
  /-- R29; the 8-bit storage is `cursorBits`. -/
  head : SlotIx
  /-- R30; the 8-bit storage is `cursorBits`. -/
  tail : SlotIx
  /-- R28; 0 means the slot is free. -/
  nextN : Vector Word 4
  /-- R27; two's complement. -/
  nextDc : Vector Word 4
  /-- R34. -/
  planC : Word
  deriving DecidableEq, Repr, Inhabited

/-- GET's local values from micro-step G4 on (10_state.md R35: `h`, `n`, `a`, `c`, `e`, `c'`), with its
operand `clip` and the flag `dir` that G4 reads. -/
structure GetLocals where
  clip : Bool
  h : SlotIx
  n : Word
  a : Word
  c : Word
  e : Word
  dir : Bool
  c' : Word
  deriving DecidableEq, Repr

/-- Which way GET came to its response, with the local values read on that way (41_velocity_engine.md
R100). -/
inductive GetPath where
  /-- From G7: steps are left. -/
  | kept
  /-- From G10: the slot is retired and the next one is free. -/
  | retired (h' : SlotIx) (n2 : Word)
  /-- From G13: the slot is retired and the next one loaded. -/
  | loaded (h' : SlotIx) (n2 dc : Word)
  deriving DecidableEq, Repr

/-- The next micro-step of a command in flight, named as the spec numbers them, with its operands and
every local value the earlier micro-steps read; they vanish at the response (10_state.md R35). -/
inductive Micro where
  -- INIT (42_filler.md R120)
  | i1
  | i2
  | i3
  | i4
  | i5
  -- PUT (42_filler.md R126): steps, speed, `t`, `p`. Past P2 its `n` is 0
  | p0 (steps speed : Word)
  | p1 (steps speed : Word)
  | p2 (steps speed : Word) (t : SlotIx)
  | p3 (steps speed : Word) (t : SlotIx)
  | p4 (steps speed : Word) (t : SlotIx) (p : Word)
  | p5 (steps speed : Word) (t : SlotIx) (p : Word)
  | p6 (steps speed : Word) (t : SlotIx) (p : Word)
  | p7 (steps speed : Word) (t : SlotIx) (p : Word)
  | p8 (steps speed : Word) (t : SlotIx) (p : Word)
  -- EMPTY (40_queue.md R90): `h`, `n`
  | e1
  | e2 (h : SlotIx)
  | e3 (h : SlotIx) (n : Word)
  -- FULL (40_queue.md R91): `t`, `n`
  | f1
  | f2 (t : SlotIx)
  | f3 (t : SlotIx) (n : Word)
  -- BEGIN (42_filler.md R124): target_c, `h`, `n`
  | b1 (target : Word)
  | b2 (target : Word) (h : SlotIx)
  | b3 (target : Word) (h : SlotIx) (n : Word)
  | b4 (target : Word) (h : SlotIx) (n : Word)
  | b5 (target : Word) (h : SlotIx) (n : Word)
  -- GET (41_velocity_engine.md R100): clip, `h`, `n`, `a`, then `GetLocals`, `h'`, `n2`, `dc`
  | g1 (clip : Bool)
  | g2 (clip : Bool) (h : SlotIx)
  | g3 (clip : Bool) (h : SlotIx) (n : Word)
  | g4 (clip : Bool) (h : SlotIx) (n a : Word)
  | g5 (l : GetLocals)
  | g6 (l : GetLocals)
  | g7 (l : GetLocals)
  | g8 (l : GetLocals)
  | g9 (l : GetLocals)
  | g10 (l : GetLocals) (h' : SlotIx)
  | g11 (l : GetLocals) (h' : SlotIx) (n2 : Word)
  | g12 (l : GetLocals) (h' : SlotIx) (n2 dc : Word)
  | g13 (l : GetLocals) (h' : SlotIx) (n2 dc : Word)
  | g14 (l : GetLocals) (path : GetPath)
  deriving DecidableEq, Repr

/-- A transaction in flight on a port: the command word presented and the next micro-step
(10_state.md R35, 30_encoding.md R70). -/
structure Flight where
  word : CmdWord
  micro : Micro
  deriving DecidableEq, Repr

/-- A FILL call running (42_filler.md R128): the reference to the descriptor it was passed, which lasts
as long as the call (10_state.md R36), `done`, and the step count `s` of the PUT whose response it waits for,
if it has issued one. -/
structure FillLoop where
  ref : Nat
  done : Word
  asked : Option Word
  deriving DecidableEq, Repr

/-- One thing an agent does next (20_memory.md R62, R63; log 5). -/
inductive Event where
  /-- The agent of port `p` presents a word and no micro-step of the other port falls inside the
  transaction: always so for the consumer on the single core (R62). -/
  | present (p : Port) (w : CmdWord)
  /-- The agent of port `p` presents a word whose micro-steps follow one by one. -/
  | start (p : Port) (w : CmdWord)
  /-- The next micro-step of the agent of port `p`: of its transaction in flight, or on port P of
  the FILL call running. -/
  | micro (p : Port)
  /-- The producer calls FILL on the descriptor number `ref` (42_filler.md R128). -/
  | fill (ref : Nat)
  /-- The external collaborator creates a descriptor (42_filler.md R130). -/
  | create (totalSteps targetC : Word)
  /-- The external collaborator changes what it requests in the descriptor number `ref`, which it owns
  (10_state.md R36; `queued_steps` is "written only by FILL", 42_filler.md R130). -/
  | amend (ref : Nat) (totalSteps targetC : Word)
  deriving DecidableEq, Repr

/-- The whole state. -/
structure State where
  /-- The registers. -/
  planner : Planner
  /-- MODEL: an INIT has completed since power-on (10_state.md R38; log 3). -/
  inited : Bool
  /-- MODEL: the port that the word being executed was presented on (00_scope.md R14; log 4). -/
  port : Port
  /-- The transaction in flight on port P (R35). -/
  flightP : Option Flight
  /-- The transaction in flight on port C (R35); none where consumer commands are atomic (R62). -/
  flightC : Option Flight
  /-- The response on port P, none until the command last accepted there is answered (R70, R76). -/
  rspP : Option Response
  /-- The response on port C (R70, R76). -/
  rspC : Option Response
  /-- The FILL call running on the producer's side (R128). -/
  fill : Option FillLoop
  /-- What the last FILL call returned: `done` (R128 L7). -/
  fillResult : Option Word
  /-- MODEL: the descriptors of the external collaborator, in the order it created them. They are not
  TVP's (R36); FILL works on the one it was passed, in its place. -/
  ddas : List Descriptor
  /-- MODEL: what the agents do next, oldest first (R62; log 5). -/
  inputs : List Event
  deriving DecidableEq, Repr

end Sys2Proof.Machine

/-- The registers at power-on (10_state.md R38: "every register … holds an unspecified value").
OPAQUE: the model gives them no value (log 3). -/
opaque Sys2Proof.Config.powerOnPlanner : Sys2Proof.Machine.Planner

namespace Sys2Proof.Machine

/-- Why a step stops with a fault. TVP has no exceptions (60_exceptions.md R160): `step` raises none. -/
inductive Fault where
  /-- `advance_head` called while the head slot still has steps (93_implementation_defined.md U4:
  "marks it `fault`"). Raised by the stand-alone operation `advanceHeadCall` only, which no command
  calls. Safe: no run of the machine meets it. -/
  | advanceHeadEarly
  deriving DecidableEq, Repr

/-- Why a step is given no meaning. Each but the first is a breach of the calling contract; all are
safe: no claim is made of such a run. -/
inductive Refusal where
  /-- An instruction with no meaning yet. Raised by no arm: every instruction has its meaning. -/
  | notModelled (mnemonic : String)
  /-- A command other than INIT, or a FILL call, before the first INIT (70_reset_and_hazards.md
  R184, 93 U1). Raised by every meaning but INIT's, at State.powerOn only. -/
  | beforeFirstInit
  /-- A consumer command between INIT's micro-steps, or INIT while a consumer command is in flight
  (R186, 93 U2). Raised by every meaning but those of the reserved codes. -/
  | initOverlap
  /-- A second command on a port before the first has responded, or a command or FILL call of a
  second producer while FILL runs (R187, 93 U3; for INIT also R186, 93 U2). Raised by every
  meaning. -/
  | portBusy
  /-- A FILL call on a descriptor that its owner never created: there is none to pass (42_filler.md R128
  takes one; log 6). Raised by FILL only, which is no instruction. -/
  | noDescriptor
  deriving DecidableEq, Repr

/-- The registers after INIT (10_state.md R39, 42_filler.md R120). -/
def Planner.reset (cStart : Word) : Planner where
  position := 0
  velocity := 0
  remainder := 0
  accelPerTick := 0
  currC := cStart
  endC := cStart
  accel := false
  head := 0
  tail := 0
  nextN := #v[0, 0, 0, 0]
  nextDc := #v[0, 0, 0, 0]
  planC := cStart

/-- The machine right after reset: the reset of TVP is INIT (70_reset_and_hazards.md R181), so the
registers are those of 10_state.md R39. No command is in flight, none has been answered, and the
agents have presented nothing (log 3, 4, 5). -/
def State.reset : State where
  planner := Planner.reset Config.platform.cStart
  inited := true
  port := .P
  flightP := none
  flightC := none
  rspP := none
  rspC := none
  fill := none
  fillResult := none
  ddas := []
  inputs := []

/-- The machine at power-on, before the first INIT (10_state.md R38, 70_reset_and_hazards.md R180). -/
def State.powerOn : State :=
  { State.reset with planner := Config.powerOnPlanner, inited := false }

end Sys2Proof.Machine
end

