-- ==== Sys2Proof/Machine/Flags.lean ====
section
/-! DEFINITION. The one stored flag and the computed predicates (spec/10_state.md R31, R32). -/

namespace Sys2Proof.Machine

/-- The value every write of `accel` by BEGIN, GET and the segment load stores: 1 if the current `c`
is below the target, else 0, unsigned (10_state.md R31, 41_velocity_engine.md R105, R107). -/
def accelFlag (c target : Word) : Bool := decide (c < target)

/-- A count that marks its slot free (10_state.md R28: 0 is the sentinel). -/
def isFree (n : Word) : Bool := n == 0

end Sys2Proof.Machine
end

