-- ==== Sys2Proof/Machine/Operands.lean ====
section
/-! DEFINITION. How operands are selected and the arithmetic on them (spec/20_memory.md R51, R56;
spec/00_scope.md R12; spec/41_velocity_engine.md R111). -/

namespace Sys2Proof.Machine

/-- The ring successor `(i + 1) mod 4` (00_scope.md R12, 20_memory.md R51). -/
def ringSucc (i : SlotIx) : SlotIx := i + 1

/-- `a +32 b` (00_scope.md R12): modulo 2^32, wrapping silently (41_velocity_engine.md R111 f). -/
def addMod (a b : Word) : Word := a + b

/-- `a −32 b` (00_scope.md R12): modulo 2^32, wrapping silently (41_velocity_engine.md R111 f). -/
def subMod (a b : Word) : Word := a - b

/-- An exact sum saturated at 2^32 − 1 (41_velocity_engine.md R111 a). -/
def saturateHigh (s : Nat) : Word := BitVec.ofNat 32 (min s (2 ^ 32 - 1))

/-- An exact difference saturated at 0 (41_velocity_engine.md R111 b). -/
def saturateLow (d : Int) : Word := BitVec.ofInt 32 (max d 0)

/-- The floor `max(r, C_MIN)`, unsigned (41_velocity_engine.md R110, R111 c). -/
def raiseTo (cMin r : Word) : Word := if r < cMin then cMin else r

/-- A predicate's answer as response data: bit 0 set or clear, bits [31:1] 0 (30_encoding.md R77). -/
def bitData (b : Bool) : Word := if b then 1 else 0

/-- `accel_index(c) = min(c >> ACCEL_P_SHIFT, ACCEL_TABLE_LEN − 1)` (20_memory.md R56). -/
def accelIndex (cfg : Config) (c : Word) : Fin cfg.accelTableLen :=
  ⟨min (c.toNat >>> cfg.accelPShift.val) (cfg.accelTableLen - 1),
    Nat.lt_of_le_of_lt (Nat.min_le_right _ _) (Nat.sub_lt (Nat.succ_pos _) Nat.one_pos)⟩

/-- `TableRead(k)` (20_memory.md R58): the word of a table that never changes (R57). -/
def tableRead (cfg : Config) (k : Fin cfg.accelTableLen) : Word := cfg.accelP.get k

/-- The whole lookup `c ↦ accel_P[accel_index(c)]` (20_memory.md R56). -/
def accelLookup (cfg : Config) (c : Word) : Word := tableRead cfg (accelIndex cfg c)

end Sys2Proof.Machine
end

