-- ==== Sys2Proof/Machine/Ops.lean ====
section
/-! DEFINITION. The named operations over registers, slots, ports and responses that the meanings share
(spec/20_memory.md R52, R53; spec/40_queue.md R92, R93; spec/00_scope.md R14; spec/30_encoding.md R70 to
R78). TVP takes no exceptions: what another machine would report by a trap, `State.answer` reports by the
response's status (spec/60_exceptions.md R160). -/

namespace Sys2Proof.Machine

/-! ### Slots -/

/-- The two fields of a slot (20_memory.md R50). -/
inductive SlotField where
  | n
  | dc
  deriving DecidableEq, Repr

/-- `SlotRead(f, i)` (20_memory.md R52). -/
def Planner.slotRead (r : Planner) (f : SlotField) (i : SlotIx) : Word :=
  match f with
  | .n => r.nextN[i]
  | .dc => r.nextDc[i]

/-- `SlotWrite(f, i, v)` (20_memory.md R53). -/
def Planner.slotWrite (r : Planner) (f : SlotField) (i : SlotIx) (v : Word) : Planner :=
  match f with
  | .n => { r with nextN := r.nextN.set i v }
  | .dc => { r with nextDc := r.nextDc.set i v }

/-- The predicate `empty` (10_state.md R32). -/
def Planner.isEmpty (r : Planner) : Bool := isFree (r.slotRead .n r.head)

/-- The predicate `full` (10_state.md R32). -/
def Planner.isFull (r : Planner) : Bool := !isFree (r.slotRead .n r.tail)

/-- `insert(steps, delta)` at the slot `t` (40_queue.md R92): the delta, then the publishing count,
then the cursor. -/
def Planner.insert (r : Planner) (t : SlotIx) (steps delta : Word) : Planner :=
  let r := r.slotWrite .dc t delta
  let r := r.slotWrite .n t steps
  { r with tail := ringSucc t }

/-- `advance_head()` at the slot `h` (40_queue.md R93): the retiring write, then the cursor. -/
def Planner.advanceHead (r : Planner) (h : SlotIx) : Planner :=
  let r := r.slotWrite .n h 0
  { r with head := ringSucc h }

/-- `advance_head` called by itself, with the steps `remaining` of the head slot not yet consumed:
its literal effect when the slot is drained, marked as gone wrong when it is not
(93_implementation_defined.md U4). No command calls it. -/
def advanceHeadCall (r : Planner) (remaining : Word) : Host.Outcome Planner Fault Refusal :=
  if remaining = 0 then .next (r.advanceHead r.head) else .fault .advanceHeadEarly

/-! ### Responses -/

/-- An `OK` response (30_encoding.md R76). -/
def okWith (data : Word) : Response := ⟨.ok, data⟩

/-- A response whose status is not `OK`: its data is 0 (30_encoding.md R76, R77). -/
def failWith (st : Status) : Response := ⟨st, 0⟩

/-- The code of a status (30_encoding.md R76). -/
def Status.code : Status → BitVec 2
  | .ok => 0
  | .empty => 1
  | .full => 2
  | .err => 3

/-- The response word: `status` [33:32], `data` [31:0] (30_encoding.md R76). -/
def Response.toWord (r : Response) : RspWord := r.status.code ++ r.data

/-! ### Ports and transactions -/

/-- The transaction in flight on a port. -/
def State.flight (s : State) : Port → Option Flight
  | .P => s.flightP
  | .C => s.flightC

/-- Put a transaction in flight on a port, or take it off. -/
def State.setFlight (s : State) (p : Port) (f : Option Flight) : State :=
  match p with
  | .P => { s with flightP := f }
  | .C => { s with flightC := f }

/-- The response on a port. -/
def State.rsp (s : State) : Port → Option Response
  | .P => s.rspP
  | .C => s.rspC

/-- Put a response on a port, or take it off. -/
def State.setRsp (s : State) (p : Port) (r : Option Response) : State :=
  match p with
  | .P => { s with rspP := r }
  | .C => { s with rspC := r }

/-- `respond(S, d)` (00_scope.md R14): the response on port `p`. -/
def State.answer (s : State) (p : Port) (r : Response) : State := s.setRsp p (some r)

/-- Which port accepts which command (30_encoding.md R73, R74). -/
def acceptedOn : Instr → Port → Bool
  | .init, .P => true
  | .init, .C => false
  | .put _ _, .P => true
  | .put _ _, .C => false
  | .full, _ => true
  | .empty, _ => true
  | .get _, .P => false
  | .get _, .C => true
  | .beginDda _, .P => false
  | .beginDda _, .C => true
  | .reserved0, _ => false
  | .reserved7, _ => false
  | .reserved8toF _, _ => false

/-- Is this command INIT? -/
def isInit : Instr → Bool
  | .init => true
  | _ => false

/-- The commands that have micro-steps. -/
inductive CmdName where
  | init
  | put
  | full
  | empty
  | get
  | beginDda
  deriving DecidableEq, Repr

/-- The command a micro-step belongs to. -/
def Micro.command : Micro → CmdName
  | .i1 | .i2 | .i3 | .i4 | .i5 => .init
  | .p0 _ _ | .p1 _ _ | .p2 _ _ _ | .p3 _ _ _ | .p4 _ _ _ _ | .p5 _ _ _ _ | .p6 _ _ _ _
  | .p7 _ _ _ _ | .p8 _ _ _ _ => .put
  | .e1 | .e2 _ | .e3 _ _ => .empty
  | .f1 | .f2 _ | .f3 _ _ => .full
  | .b1 _ | .b2 _ _ | .b3 _ _ _ | .b4 _ _ _ | .b5 _ _ _ => .beginDda
  | .g1 _ | .g2 _ _ | .g3 _ _ _ | .g4 _ _ _ _ | .g5 _ | .g6 _ | .g7 _ | .g8 _ | .g9 _
  | .g10 _ _ | .g11 _ _ _ | .g12 _ _ _ _ | .g13 _ _ _ _ | .g14 _ _ => .get

/-- Is this a micro-step of INIT? -/
def Micro.isInit (m : Micro) : Bool := m.command == .init

/-- INIT is in flight (on port P, the only one that accepts it). -/
def State.initInFlight (s : State) : Bool := s.flightP.any (·.micro.isInit)

/-- The port cannot take a new transaction: one is in flight there (30_encoding.md R70), or the
producer is inside a FILL call and a word on port P would be a second producer's
(70_reset_and_hazards.md R187). -/
def State.busy (s : State) : Port → Bool
  | .P => s.flightP.isSome || s.fill.isSome
  | .C => s.flightC.isSome

/-- What becomes of a word presented on a port. -/
inductive Admission where
  /-- The spec gives the run no meaning (93_implementation_defined.md U1 to U3). -/
  | refuse (r : Refusal)
  /-- `respond(ERR, 0)` (30_encoding.md R75). -/
  | reject
  /-- The command's rule is performed. -/
  | accept
  deriving DecidableEq, Repr

/-- Whether command `i` may be performed on port `p`: the checks of 30_encoding.md R75 in their order,
reserved and wrong-port words before anything that reads a register, then the contract of
70_reset_and_hazards.md R184 (INIT first) and R186 (INIT overlaps nothing) (log 3, 8, 9). -/
def State.admission (s : State) (p : Port) (i : Instr) : Admission :=
  if s.busy p then .refuse .portBusy
  else if !acceptedOn i p then .reject
  else if isInit i then (if s.flightC.isSome then .refuse .initOverlap else .accept)
  else if !s.inited then .refuse .beforeFirstInit
  else if s.initInFlight then .refuse .initOverlap
  else .accept

/-- The end of a command on port `p`: its registers and its response; INIT has now been done if this
was INIT (10_state.md R38). -/
def State.complete (s : State) (p : Port) (wasInit : Bool) (r : Planner) (rsp : Response) : State :=
  { s with planner := r, inited := s.inited || wasInit }.answer p rsp

/-- A whole transaction of command `i` on the port its word came from, with nothing falling between
its micro-steps: `body` is the command's rule on the registers. -/
def State.perform (s : State) (i : Instr) (body : Planner → Planner × Response) :
    Host.Outcome State Fault Refusal :=
  match s.admission s.port i with
  | .refuse r => .refused r
  | .reject => .next (s.answer s.port (failWith .err))
  | .accept => .next (s.complete s.port (isInit i) (body s.planner).1 (body s.planner).2)

/-- A whole transaction of a reserved word: `ERR` and no state change (30_encoding.md R78). -/
def State.performReserved (s : State) : Host.Outcome State Fault Refusal :=
  if s.busy s.port then .refused .portBusy else .next (s.answer s.port (failWith .err))

end Sys2Proof.Machine
end

