-- ==== Sys2Proof/Machine/Filler.lean ====
section
/-! DEFINITION. The queue filler's commands, INIT, BEGIN and PUT, and the policy of FILL
(spec/42_filler.md). -/

namespace Sys2Proof.Machine

/-- INIT on the registers (42_filler.md R120): the values of 10_state.md R39, from any state. -/
def Planner.init (cfg : Config) (_r : Planner) : Planner × Response :=
  ({ position := 0, velocity := 0, remainder := 0, accelPerTick := 0,
     currC := cfg.cStart, endC := cfg.cStart, accel := false, head := 0, tail := 0,
     nextN := #v[0, 0, 0, 0], nextDc := #v[0, 0, 0, 0], planC := cfg.cStart }, okWith 0)

/-- BEGIN on the registers (42_filler.md R124). -/
def Planner.beginDda (targetC : Word) (r : Planner) : Planner × Response :=
  if r.isEmpty then (r, failWith .empty)
  else ({ r with endC := targetC, accel := accelFlag r.currC targetC }, okWith 0)

/-- PUT on the registers (42_filler.md R126, R127). -/
def Planner.put (steps speed : Word) (r : Planner) : Planner × Response :=
  if steps = 0 then (r, failWith .err)
  else if r.isFull then (r, failWith .full)
  else ({ r.insert r.tail steps (subMod speed r.planC) with planC := speed }, okWith 0)

/-- INIT (42_filler.md R120), accepted on port P. -/
def execInit (s : State) : Host.Outcome State Fault Refusal :=
  s.perform .init (Planner.init Config.platform)

/-- BEGIN target_c (42_filler.md R124), accepted on port C. -/
def execBegin (targetC : Word) (s : State) : Host.Outcome State Fault Refusal :=
  s.perform (.beginDda targetC) (Planner.beginDda targetC)

/-- PUT steps, speed (42_filler.md R126, R127), accepted on port P. -/
def execPut (steps speed : Word) (s : State) : Host.Outcome State Fault Refusal :=
  s.perform (.put steps speed) (Planner.put steps speed)

/-- The steps of a descriptor not yet queued (42_filler.md R129). -/
def unqueued (d : Descriptor) : Word := d.totalSteps - d.queuedSteps

/-- `FILL_POLICY(dda)` (42_filler.md R129): the platform's proposal with its step count kept within
`1 ≤ s ≤ total_steps − queued_steps`. Every policy that meets the bound arises, as its own proposal,
and no other does (log 6). -/
def fillEntry (cfg : Config) (d : Descriptor) : Word × Word :=
  let e := cfg.fillProposal d
  (if e.1 = 0 then 1 else if unqueued d < e.1 then unqueued d else e.1, e.2)

/-- The default policy of 42_filler.md R129: one entry for all that is left. -/
def oneEntry (d : Descriptor) : Word × Word := (unqueued d, d.targetC)

end Sys2Proof.Machine
end

