-- ==== Sys2Proof/Machine/Queue.lean ====
section
/-! DEFINITION. The move queue's commands, EMPTY and FULL (spec/40_queue.md). -/

namespace Sys2Proof.Machine

/-- EMPTY on the registers (40_queue.md R90). -/
def Planner.empty (r : Planner) : Planner × Response := (r, okWith (bitData r.isEmpty))

/-- FULL on the registers (40_queue.md R91). -/
def Planner.full (r : Planner) : Planner × Response := (r, okWith (bitData r.isFull))

/-- EMPTY (40_queue.md R90), accepted on both ports. -/
def execEmpty (s : State) : Host.Outcome State Fault Refusal := s.perform .empty Planner.empty

/-- FULL (40_queue.md R91), accepted on both ports. -/
def execFull (s : State) : Host.Outcome State Fault Refusal := s.perform .full Planner.full

end Sys2Proof.Machine
end

