-- ==== Sys2Proof/Machine/Reserved.lean ====
section
/-! DEFINITION. The reserved operation codes (spec/30_encoding.md R78). -/

namespace Sys2Proof.Machine

/-- RESERVED_0, op 0x0 (30_encoding.md R78). -/
def execReserved0 (s : State) : Host.Outcome State Fault Refusal := s.performReserved

/-- RESERVED_7, op 0x7 (30_encoding.md R78). -/
def execReserved7 (s : State) : Host.Outcome State Fault Refusal := s.performReserved

/-- RESERVED_8_TO_F, op 0x8 to 0xF (30_encoding.md R78): the code does not matter. -/
def execReserved8toF (_op : BitVec 4) (s : State) : Host.Outcome State Fault Refusal :=
  s.performReserved

end Sys2Proof.Machine
end

