-- ==== Sys2Proof/Machine/Velocity.lean ====
section
/-! DEFINITION. The velocity engine's command, GET (spec/41_velocity_engine.md). -/

namespace Sys2Proof.Machine

/-- `velocity_update(c, e, dir, a, clip)` (41_velocity_engine.md R103): exact arithmetic, clamped at
the target when `clip` (R109), saturated (R110), floored at `cMin` (R110). -/
def velocityUpdate (cMin c e : Word) (dir : Bool) (a : Word) (clip : Bool) : Word :=
  raiseTo cMin
    (if c = e then c
     else if dir then
       let s : Nat := c.toNat + a.toNat
       if clip = true ∧ e.toNat ≤ s then e else saturateHigh s
     else
       let d : Int := (c.toNat : Int) - (a.toNat : Int)
       if clip = true ∧ d ≤ (e.toNat : Int) then e else saturateLow d)

/-- The registers after GET's update, before its step count: micro-steps G3 to G6 of
41_velocity_engine.md R100 (R102, R103, R105). -/
def Planner.updated (cfg : Config) (clip : Bool) (r : Planner) : Planner :=
  let a := accelLookup cfg r.currC
  let c' := velocityUpdate cfg.cMin r.currC r.endC r.accel a clip
  { r with accelPerTick := a, currC := c', accel := accelFlag c' r.endC }

/-- The load of the segment at the new head, if it is live: micro-steps G10 to G13 (R107). -/
def Planner.loadNext (r : Planner) : Planner :=
  if r.isEmpty then r
  else
    let e' := addMod r.endC (r.slotRead .dc r.head)
    { r with endC := e', accel := accelFlag r.currC e' }

/-- One step of the head segment, of which `n` were left: micro-steps G7 to G13 (R106, R107). -/
def Planner.consumeStep (r : Planner) (n : Word) : Planner :=
  if n - 1 = 0 then (r.advanceHead r.head).loadNext else r.slotWrite .n r.head (n - 1)

/-- GET on the registers (41_velocity_engine.md R100). -/
def Planner.get (cfg : Config) (clip : Bool) (r : Planner) : Planner × Response :=
  if r.isEmpty then (r, failWith .empty)
  else
    let r' := (r.updated cfg clip).consumeStep (r.slotRead .n r.head)
    (r', okWith r'.currC)

/-- GET clip (41_velocity_engine.md R100), accepted on port C. -/
def execGet (clip : Bool) (s : State) : Host.Outcome State Fault Refusal :=
  s.perform (.get clip) (Planner.get Config.platform clip)

end Sys2Proof.Machine
end

