-- ==== Sys2Proof/Machine/Dispatch.lean ====
section
/-! DEFINITION. Each command's meaning: one whole transaction on the port `State.port`, with nothing
falling between its micro-steps. Machine/Micro.lean has the same commands micro-step by micro-step. -/

namespace Sys2Proof.Machine

def exec (i : Instr) (s : State) : Host.Outcome State Fault Refusal :=
  match i with
  | .init => Sys2Proof.Machine.execInit s
  | .put steps speed => Sys2Proof.Machine.execPut steps speed s
  | .full => Sys2Proof.Machine.execFull s
  | .empty => Sys2Proof.Machine.execEmpty s
  | .get clip => Sys2Proof.Machine.execGet clip s
  | .beginDda targetC => Sys2Proof.Machine.execBegin targetC s
  | .reserved0 => Sys2Proof.Machine.execReserved0 s
  | .reserved7 => Sys2Proof.Machine.execReserved7 s
  | .reserved8toF op => Sys2Proof.Machine.execReserved8toF op s

end Sys2Proof.Machine
end

