-- ==== Sys2Proof/Machine/Micro.lean ====
section
/-! DEFINITION. The commands as the spec writes them, micro-step by micro-step (spec/00_scope.md R15;
spec/20_memory.md R62, R63). Each micro-step touches at most one shared register, so that a command of
the other agent may fall between any two. -/

namespace Sys2Proof.Machine

/-- What follows a micro-step: another one, or the response. -/
inductive After where
  | go (m : Micro)
  | done (rsp : Response)
  deriving DecidableEq, Repr

/-- The first micro-step of a command; none for a reserved code, which has no rule to perform. -/
def Micro.first : Instr → Option Micro
  | .init => some .i1
  | .put steps speed => some (.p0 steps speed)
  | .full => some .f1
  | .empty => some .e1
  | .get clip => some (.g1 clip)
  | .beginDda targetC => some (.b1 targetC)
  | .reserved0 => none
  | .reserved7 => none
  | .reserved8toF _ => none

/-- One micro-step on the registers: 42_filler.md R120 (I), R126 (P), R124 (B); 40_queue.md R90 (E),
R91 (F); 41_velocity_engine.md R100 (G). -/
def microStep (cfg : Config) (m : Micro) (r : Planner) : Planner × After :=
  match m with
  | .i1 => ({ r with nextN := #v[0, 0, 0, 0], nextDc := #v[0, 0, 0, 0] }, .go .i2)
  | .i2 => ({ r with head := 0, tail := 0 }, .go .i3)
  | .i3 => ({ r with currC := cfg.cStart, endC := cfg.cStart, planC := cfg.cStart }, .go .i4)
  | .i4 =>
    ({ r with position := 0, velocity := 0, remainder := 0, accelPerTick := 0, accel := false },
      .go .i5)
  | .i5 => (r, .done (okWith 0))
  | .p0 steps speed => (r, if steps = 0 then .done (failWith .err) else .go (.p1 steps speed))
  | .p1 steps speed => (r, .go (.p2 steps speed r.tail))
  | .p2 steps speed t =>
    (r, if isFree (r.slotRead .n t) then .go (.p3 steps speed t) else .done (failWith .full))
  | .p3 steps speed t => (r, .go (.p4 steps speed t r.planC))
  | .p4 steps speed t p => (r.slotWrite .dc t (subMod speed p), .go (.p5 steps speed t p))
  | .p5 steps speed t p => (r.slotWrite .n t steps, .go (.p6 steps speed t p))
  | .p6 steps speed t p => ({ r with tail := ringSucc t }, .go (.p7 steps speed t p))
  | .p7 steps speed t p => ({ r with planC := speed }, .go (.p8 steps speed t p))
  | .p8 _ _ _ _ => (r, .done (okWith 0))
  | .e1 => (r, .go (.e2 r.head))
  | .e2 h => (r, .go (.e3 h (r.slotRead .n h)))
  | .e3 _ n => (r, .done (okWith (bitData (isFree n))))
  | .f1 => (r, .go (.f2 r.tail))
  | .f2 t => (r, .go (.f3 t (r.slotRead .n t)))
  | .f3 _ n => (r, .done (okWith (bitData (!isFree n))))
  | .b1 target => (r, .go (.b2 target r.head))
  | .b2 target h =>
    let n := r.slotRead .n h
    (r, if isFree n then .done (failWith .empty) else .go (.b3 target h n))
  | .b3 target h n => ({ r with endC := target }, .go (.b4 target h n))
  | .b4 target h n => ({ r with accel := accelFlag r.currC target }, .go (.b5 target h n))
  | .b5 _ _ _ => (r, .done (okWith 0))
  | .g1 clip => (r, .go (.g2 clip r.head))
  | .g2 clip h =>
    let n := r.slotRead .n h
    (r, if isFree n then .done (failWith .empty) else .go (.g3 clip h n))
  | .g3 clip h n =>
    let a := accelLookup cfg r.currC
    ({ r with accelPerTick := a }, .go (.g4 clip h n a))
  | .g4 clip h n a =>
    (r, .go (.g5
      { clip := clip, h := h, n := n, a := a, c := r.currC, e := r.endC, dir := r.accel,
        c' := velocityUpdate cfg.cMin r.currC r.endC r.accel a clip }))
  | .g5 l => ({ r with currC := l.c' }, .go (.g6 l))
  | .g6 l => ({ r with accel := accelFlag l.c' l.e }, .go (.g7 l))
  | .g7 l =>
    if l.n - 1 = 0 then (r, .go (.g8 l)) else (r.slotWrite .n l.h (l.n - 1), .go (.g14 l .kept))
  | .g8 l => (r.slotWrite .n l.h 0, .go (.g9 l))
  | .g9 l => ({ r with head := ringSucc l.h }, .go (.g10 l (ringSucc l.h)))
  | .g10 l h' =>
    let n2 := r.slotRead .n h'
    (r, if isFree n2 then .go (.g14 l (.retired h' n2)) else .go (.g11 l h' n2))
  | .g11 l h' n2 => (r, .go (.g12 l h' n2 (r.slotRead .dc h')))
  | .g12 l h' n2 dc => ({ r with endC := addMod l.e dc }, .go (.g13 l h' n2 dc))
  | .g13 l h' n2 dc =>
    ({ r with accel := accelFlag l.c' (addMod l.e dc) }, .go (.g14 l (.loaded h' n2 dc)))
  | .g14 l _ => (r, .done (okWith l.c'))

/-- A command's micro-steps one after another with nothing between them, at most `k` of them:
the registers and the response, none if it has not responded yet. -/
def runMicro (cfg : Config) : Nat → Micro → Planner → Planner × Option Response
  | 0, _, r => (r, none)
  | k + 1, m, r =>
    match (microStep cfg m r).2 with
    | .go m' => runMicro cfg k m' (microStep cfg m r).1
    | .done rsp => ((microStep cfg m r).1, some rsp)

end Sys2Proof.Machine
end

