-- ==== Sys2Proof/Machine/Sequencer.lean ====
section
/-! DEFINITION. What sequences TVP in place of a program counter (spec/10_state.md R40): which transaction
or micro-step comes next (spec/20_memory.md R62, R63; spec/60_exceptions.md R165), and the producer's FILL
loop (spec/42_filler.md R128). -/

namespace Sys2Proof.Machine

/-- The word presented on port `p` is taken from the inputs. -/
def State.taking (s : State) (p : Port) (rest : List Event) : State :=
  { s with inputs := rest, port := p }

/-- The command of word `w` is accepted on port `p`: its progress is created and the port has no
response yet (10_state.md R35, 30_encoding.md R70). -/
def State.launch (s : State) (p : Port) (w : CmdWord) (m : Micro) : State :=
  (s.setFlight p (some ⟨w, m⟩)).setRsp p none

/-- A word presented on port `p` whose micro-steps follow one by one (20_memory.md R62). Reserved and
wrong-port words are answered at once (30_encoding.md R75). -/
def startCommand (p : Port) (w : CmdWord) (s : State) : Host.Outcome State Fault Refusal :=
  match Micro.first (decode w) with
  | none => if s.busy p then .refused .portBusy else .next (s.answer p (failWith .err))
  | some m =>
    match s.admission p (decode w) with
    | .refuse r => .refused r
    | .reject => .next (s.answer p (failWith .err))
    | .accept => .next (s.launch p w m)

/-- The next micro-step of the transaction `f` in flight on port `p`. At its response the progress
vanishes (10_state.md R35). -/
def State.stepFlight (s : State) (p : Port) (f : Flight) : State :=
  match (microStep Config.platform f.micro s.planner).2 with
  | .go m' =>
    { s with planner := (microStep Config.platform f.micro s.planner).1 }.setFlight p
      (some ⟨f.word, m'⟩)
  | .done rsp =>
    (s.setFlight p none).complete p f.micro.isInit
      (microStep Config.platform f.micro s.planner).1 rsp

/-- The descriptor number `ref` of the external collaborator, if it has created one. -/
def State.descriptor (s : State) (ref : Nat) : Option Descriptor := s.ddas[ref]?

/-- A descriptor with `steps` more of its steps queued (42_filler.md R128 L5). -/
def creditDescriptor (d : Descriptor) (steps : Word) : Descriptor :=
  { d with queuedSteps := d.queuedSteps + steps }

/-- The FILL call issues `PUT n, v` on port P and waits for its response (42_filler.md R128 L3). -/
def State.fillIssue (s : State) (l : FillLoop) (n v : Word) : State :=
  { s with fill := some { l with asked := some n } }.launch .P (encode (.put n v)) (.p0 n v)

/-- A PUT of `steps` that the FILL call issued was answered `OK`: `steps` more of the descriptor `d` are
queued, in its owner's place, and `done` counts them (42_filler.md R128 L5, L6). -/
def State.fillCredit (s : State) (l : FillLoop) (d : Descriptor) (steps : Word) : State :=
  { s with ddas := s.ddas.set l.ref (creditDescriptor d steps)
           fill := some { l with done := l.done + steps, asked := none } }

/-- The FILL call returns `done` (42_filler.md R128 L7); the reference ends with it (10_state.md R36). -/
def State.fillReturn (s : State) (l : FillLoop) : State :=
  { s with fill := none, fillResult := some l.done }

/-- The next action of the FILL loop while no PUT of its own is in flight (42_filler.md R128), on the
descriptor as it stands then: with no PUT issued, L1 to L3 (test, policy, issue) or L7; with one
answered, L4 to L6, or L4 and L7. It reads no register of TVP: what it knows of the queue is its PUTs'
responses (20_memory.md R69), so it goes on until the descriptor is fully queued or a PUT is refused,
however many entries that takes (DEDUCED, log 17). -/
def State.stepFill (s : State) (l : FillLoop) : Host.Outcome State Fault Refusal :=
  match s.descriptor l.ref with
  | none => .refused .noDescriptor
  | some d =>
    match l.asked with
    | none =>
      if d.queuedSteps < d.totalSteps then
        if s.inited then
          .next (s.fillIssue l (fillEntry Config.platform d).1 (fillEntry Config.platform d).2)
        else .refused .beforeFirstInit
      else .next (s.fillReturn l)
    | some steps =>
      if s.rspP.any (·.status == .ok) then .next (s.fillCredit l d steps)
      else .next (s.fillReturn l)

/-- What an agent with nothing in flight does next: the producer's FILL call, if one is running, and
else nothing (60_exceptions.md R172). -/
def State.resume (s : State) : Port → Host.Outcome State Fault Refusal
  | .P =>
    match s.fill with
    | some l => s.stepFill l
    | none => .next s
  | .C => .next s

/-- The next micro-step of the agent of port `p`: of its transaction in flight, else what it resumes. -/
def advance (p : Port) (s : State) : Host.Outcome State Fault Refusal :=
  match s.flight p with
  | some f => .next (s.stepFlight p f)
  | none => s.resume p

/-- The producer calls FILL on the descriptor number `ref` (42_filler.md R128 L0), if it has nothing else
in flight (R187) and INIT has been done (R184). -/
def startFill (ref : Nat) (s : State) : Host.Outcome State Fault Refusal :=
  if s.busy .P then .refused .portBusy
  else if !s.inited then .refused .beforeFirstInit
  else if (s.descriptor ref).isNone then .refused .noDescriptor
  else .next { s with fill := some ⟨ref, 0, none⟩, fillResult := none }

/-- The external collaborator creates a descriptor: `queued_steps` is 0 (42_filler.md R130). -/
def State.createDescriptor (s : State) (totalSteps targetC : Word) : State :=
  { s with ddas := s.ddas ++ [⟨totalSteps, targetC, 0⟩] }

/-- The external collaborator changes what it requests in a descriptor it owns, at any time; only FILL
writes `queued_steps` (42_filler.md R130). A number that names none changes nothing. -/
def State.amendDescriptor (s : State) (ref : Nat) (totalSteps targetC : Word) : State :=
  { s with ddas := s.ddas.modify ref fun d => ⟨totalSteps, targetC, d.queuedSteps⟩ }

/-- With nothing more presented, what is in flight goes on, the consumer first
(60_exceptions.md R165). -/
def goOn (s : State) : Host.Outcome State Fault Refusal :=
  if s.flightC.isSome then advance .C s else advance .P s

/-- The port on which the word of a command is presented when nothing else says so: one that accepts it
(30_encoding.md R74); port P for a code no port accepts. -/
def homePort (i : Instr) : Port := if acceptedOn i .P then .P else if acceptedOn i .C then .C else .P

/-- The command word of an instruction whose bits are `w` below `nbits`, the bits above 0. -/
def tableWord (nbits w : Nat) : CmdWord := BitVec.ofNat 68 (w % 2 ^ nbits)

end Sys2Proof.Machine
end

