-- ==== Sys2Proof/Machine/Step.lean ====
section
/-! DEFINITION. One step of the machine: the next thing an agent does (spec/20_memory.md R62, R63). -/

namespace Sys2Proof.Machine

/-- One step. A word presented is decoded and runs as a whole transaction, or starts one; a micro-step is
taken; a FILL call begins; a descriptor's owner writes it; with nothing presented, what is in flight goes on. -/
def step (s : State) : Host.Outcome State Fault Refusal :=
  match s.inputs with
  | [] => goOn s
  | .present p w :: rest => exec (decode w) (s.taking p rest)
  | .start p w :: rest => startCommand p w { s with inputs := rest }
  | .micro p :: rest => advance p { s with inputs := rest }
  | .fill ref :: rest => startFill ref { s with inputs := rest }
  | .create totalSteps targetC :: rest =>
    .next ({ s with inputs := rest }.createDescriptor totalSteps targetC)
  | .amend ref totalSteps targetC :: rest =>
    .next ({ s with inputs := rest }.amendDescriptor ref totalSteps targetC)

/-- `s` with an instruction presented as the next thing that happens, on a port that accepts it
(log 5). -/
def State.withFetchWord (s : State) (nbits w : Nat) : State :=
  { s with inputs := .present (homePort (decode (tableWord nbits w))) (tableWord nbits w) :: s.inputs }

end Sys2Proof.Machine
end

