-- ==== Sys2Proof/Safety.lean ====
section
/-! DEFINITION. What counts as a good state and a safe run: the conditions under which a port takes a
command, the invariants of spec/43_phases_and_invariants.md, and its phases, in the terms claims use.
Nothing here adds behaviour. -/

namespace Sys2Proof.Machine

/-! ### What the next step is -/

/-- The micro-step that `step` takes next: that of the port the next input names, or with no input that of
the transaction in flight, the consumer's first; none where a word is presented, a FILL call or its owner
acts, or nothing is in flight there. -/
def State.microTaken (s : State) : Option Micro :=
  match s.inputs with
  | [] => if s.flightC.isSome then s.flightC.map (·.micro) else s.flightP.map (·.micro)
  | .micro p :: _ => (s.flight p).map (·.micro)
  | _ => none

/-- The next step is no INIT: neither one presented whole nor one of its micro-steps. -/
def State.NoInitNext (s : State) : Prop :=
  (∀ w rest, s.inputs = .present .P w :: rest → decode w ≠ .init) ∧
    ∀ m, s.microTaken = some m → m.isInit = false

/-! ### When a port takes a command -/

/-- Port P is idle and INIT has been done: the producer may issue any command but INIT
(30_encoding.md R70, 70_reset_and_hazards.md R184, R187). -/
def State.readyP (s : State) : Prop :=
  s.inited = true ∧ s.flightP = none ∧ s.fill = none

/-- Port C is idle, INIT has been done and none is in flight: the consumer may issue any command
(30_encoding.md R70, 70_reset_and_hazards.md R184, R186). -/
def State.readyC (s : State) : Prop :=
  s.inited = true ∧ s.flightC = none ∧ s.initInFlight = false

/-- The port a word was presented on may take any command but INIT. -/
def State.ready (s : State) : Prop :=
  match s.port with
  | .P => s.readyP
  | .C => s.readyC

/-- Nothing is in flight on either port and no FILL runs: INIT may be issued
(70_reset_and_hazards.md R186). -/
def State.quiet (s : State) : Prop :=
  s.flightP = none ∧ s.flightC = none ∧ s.fill = none

/-! ### Phases (43_phases_and_invariants.md R141) -/

/-- The occupancy phases. -/
inductive Occupancy where
  | idle
  | draining
  deriving DecidableEq, Repr

/-- The motion phases. The names refer to the direction in which the number `curr_c` moves. -/
inductive Motion where
  | cruise
  | rampUp
  | rampDown
  deriving DecidableEq, Repr

/-- The occupancy phase (R141). -/
def Planner.occupancy (r : Planner) : Occupancy :=
  if r.nextN[r.head] = 0 then .idle else .draining

/-- The motion phase of `c` against a target (R141). -/
def motionOf (c target : Word) : Motion :=
  if c = target then .cruise else if c < target then .rampUp else .rampDown

/-- The motion phase (R141). -/
def Planner.motion (r : Planner) : Motion := motionOf r.currC r.endC

/-- The number of live slots. -/
def Planner.liveSlots (r : Planner) : Nat :=
  (if r.nextN[0] = 0 then 0 else 1) + (if r.nextN[1] = 0 then 0 else 1) +
    (if r.nextN[2] = 0 then 0 else 1) + (if r.nextN[3] = 0 then 0 else 1)

/-! ### Which micro-steps a port can be at -/

/-- The command a micro-step belongs to is one the port accepts (30_encoding.md R74). -/
def Micro.ofPort (p : Port) (m : Micro) : Bool :=
  match m.command with
  | .full | .empty => true
  | .init | .put => p == .P
  | .get | .beginDda => p == .C

/-- The next micro-step of the transaction in flight on a port, if there is one. -/
def State.microOn (s : State) (p : Port) : Option Micro := (s.flight p).map (·.micro)

/-- The contract of 70_reset_and_hazards.md R184 and R186 as the state shows it: each port is at a
micro-step of a command it accepts, INIT is alone, and before the first INIT nothing else is in
flight. -/
structure State.Orderly (s : State) : Prop where
  portP : ∀ m, s.microOn .P = some m → m.ofPort .P = true
  portC : ∀ m, s.microOn .C = some m → m.ofPort .C = true
  initAlone : s.initInFlight = true → s.flightC = none
  beforeInit : s.inited = false →
    s.flightC = none ∧ (s.flightP = none ∨ s.initInFlight = true)

/-! ### The ring (43_phases_and_invariants.md R150, R151, R153) -/

/-- The live slots are exactly `L` slots from `vh` on, and `vt` is the slot after them (R150). -/
def Ring (vh vt : SlotIx) (n : Vector Word 4) : Prop :=
  ∃ L : Nat, L ≤ 4 ∧ vt.val = (vh.val + L) % 4 ∧ ∀ k : SlotIx, n[vh + k] ≠ 0 ↔ k.val < L

/-- Where the live slots begin: `head`, but one slot on between a GET's retiring write and its cursor
write (G8 and G9). -/
def State.ringHead (s : State) : SlotIx :=
  match s.microOn .C with
  | some (.g9 l) => ringSucc l.h
  | _ => s.planner.head

/-- Where the live slots end: `tail`, but one slot on between a PUT's publishing write and its cursor
write (P5 and P6). -/
def State.ringTail (s : State) : SlotIx :=
  match s.microOn .P with
  | some (.p6 _ _ t _) => ringSucc t
  | _ => s.planner.tail

/-- What a PUT in flight knows: `t` is `tail`, and from P3 to P5 the slot is free; at P5 its delta is
in place before its count (R64, R153). -/
def producerKnows (r : Planner) : Micro → Prop
  | .p1 steps _ => steps ≠ 0
  | .p2 steps _ t => steps ≠ 0 ∧ t = r.tail
  | .p3 steps _ t => steps ≠ 0 ∧ t = r.tail ∧ r.nextN[t] = 0
  | .p4 steps _ t p => steps ≠ 0 ∧ t = r.tail ∧ r.nextN[t] = 0 ∧ p = r.planC
  | .p5 steps speed t _ =>
    steps ≠ 0 ∧ t = r.tail ∧ r.nextN[t] = 0 ∧ r.nextDc[t] = subMod speed r.planC
  | .p6 _ _ t _ => t = r.tail
  | _ => True

/-- What a GET in flight knows: `h` is `head`, and until G8 the slot holds the count `n` it read, which
is not 0 (R65, R106). -/
def consumerKnows (r : Planner) : Micro → Prop
  | .g2 _ h => h = r.head
  | .g3 _ h n | .g4 _ h n _ => h = r.head ∧ r.nextN[h] = n ∧ n ≠ 0
  | .g5 l | .g6 l | .g7 l => l.h = r.head ∧ r.nextN[l.h] = l.n ∧ l.n ≠ 0
  | .g8 l => l.h = r.head ∧ r.nextN[l.h] = 1
  | .g9 l => l.h = r.head
  | .g10 _ h' | .g11 _ h' _ => h' = r.head
  | _ => True

/-- The ring invariant, at every point of every interleaving of the micro-steps of both agents
(R150, R153). During INIT it holds from I3 on; before the first INIT it says nothing. -/
structure State.RingInv (s : State) : Prop extends State.Orderly s where
  ring : s.inited = true → s.initInFlight = false → Ring s.ringHead s.ringTail s.planner.nextN
  ringInInit : match s.microOn .P with
    | some .i2 => s.planner.nextN = #v[0, 0, 0, 0]
    | some .i3 | some .i4 | some .i5 => Ring s.planner.head s.planner.tail s.planner.nextN
    | _ => True
  producer : ∀ m, s.microOn .P = some m → producerKnows s.planner m
  consumer : ∀ m, s.microOn .C = some m → consumerKnows s.planner m

/-! ### The flag (43_phases_and_invariants.md R154) -/

/-- The flag says whether `curr_c` is below `end_c` (R154). -/
def Planner.flagRight (r : Planner) : Prop := r.accel = accelFlag r.currC r.endC

/-- The flag while a consumer command is at micro-step `m`: right, but between the write of `curr_c` or
`end_c` and the write of `accel` that follows it. -/
def flagDuring (r : Planner) : Micro → Prop
  | .g5 l => r.endC = l.e ∧ r.flagRight
  | .g6 l => r.currC = l.c' ∧ r.endC = l.e
  | .g7 l | .g8 l | .g9 l | .g10 l _ | .g11 l _ _ | .g12 l _ _ _ =>
    r.currC = l.c' ∧ r.endC = l.e ∧ r.flagRight
  | .g13 l _ _ dc => r.currC = l.c' ∧ r.endC = addMod l.e dc
  | .b4 target _ _ => r.endC = target
  | _ => r.flagRight

/-- The flag invariant (R154), at every point of every interleaving. -/
structure State.FlagInv (s : State) : Prop extends State.Orderly s where
  flag : s.inited = true → s.initInFlight = false →
    match s.microOn .C with
    | none => s.planner.flagRight
    | some m => flagDuring s.planner m
  flagInInit : match s.microOn .P with
    | some .i4 => s.planner.currC = s.planner.endC
    | some .i5 => s.planner.flagRight
    | _ => True

/-! ### The floor (43_phases_and_invariants.md R156) -/

/-- `C_MIN ≤ curr_c` from INIT on (R156), at every point of every interleaving. -/
structure State.FloorInv (s : State) : Prop extends State.Orderly s where
  floor : s.inited = true → Config.platform.cMin ≤ s.planner.currC
  floorInInit : match s.microOn .P with
    | some .i4 | some .i5 => Config.platform.cMin ≤ s.planner.currC
    | _ => True
  floorInGet : ∀ l, s.microOn .C = some (.g5 l) → Config.platform.cMin ≤ l.c'

/-! ### Responses (30_encoding.md R76) -/

/-- A response whose status is not `OK` carries data 0 (R76). -/
def Response.clean (r : Response) : Prop := r.status ≠ .ok → r.data = 0

/-- Every response on the ports is clean. -/
def State.RspInv (s : State) : Prop :=
  (∀ r, s.rspP = some r → r.clean) ∧ (∀ r, s.rspC = some r → r.clean)

/-! ### FILL (43_phases_and_invariants.md R159) -/

/-- No descriptor has more steps queued than it requests (R159), and a running FILL call works on one
there is, where what it has asked for still fits (R129). -/
structure State.FillInv (s : State) : Prop where
  within : ∀ d ∈ s.ddas, d.wf = true
  running : ∀ l, s.fill = some l → ∃ d, s.descriptor l.ref = some d ∧
    ∀ steps, l.asked = some steps → steps ≠ 0 ∧ steps ≤ d.totalSteps - d.queuedSteps

/-- The owner's next write to a descriptor, if that is the next input, does not request fewer steps than
before. -/
def State.NoShortening (s : State) : Prop :=
  ∀ ref totalSteps targetC rest d, s.inputs = .amend ref totalSteps targetC :: rest →
    s.descriptor ref = some d → d.totalSteps ≤ totalSteps

/-- The step count of the PUT a micro-step belongs to, if it belongs to one (42_filler.md R126). -/
def Micro.putSteps : Micro → Option Word
  | .p0 n _ | .p1 n _ | .p2 n _ _ | .p3 n _ _ | .p4 n _ _ _ | .p5 n _ _ _ | .p6 n _ _ _
  | .p7 n _ _ _ | .p8 n _ _ _ => some n
  | _ => none

/-- A running FILL call either has no PUT asked for, and then nothing is in flight on port P, or waits for
one PUT of its own, of as many steps as it asked for and at least one: that PUT is in flight on port P, or
has been answered `OK` or `FULL` there, never `ERR` (42_filler.md R128 L3, L4; R131). -/
def State.FillWaits (s : State) : Prop :=
  ∀ l, s.fill = some l →
    match l.asked with
    | none => s.flightP = none
    | some n =>
      n ≠ 0 ∧
      match s.microOn .P with
      | some m => m.putSteps = some n
      | none => ∃ r, s.rspP = some r ∧ (r.status = .ok ∨ r.status = .full)

/-- A PUT of the running FILL call has been published (P5), or answered `OK`, and is not yet counted (L5,
L6): 1, else 0. -/
def State.fillPending (s : State) : Nat :=
  if s.fill.any (·.asked.isSome) then
    match s.microOn .P with
    | some (.p6 _ _ _ _) | some (.p7 _ _ _ _) | some (.p8 _ _ _ _) => 1
    | some _ => 0
    | none => if s.rspP.any (·.status == .ok) then 1 else 0
  else 0

/-- The entries of a FILL call that the step from `s` to `s'` counts: the one whose PUT was answered `OK`,
where the call goes on with no PUT asked for (42_filler.md R128 L4 to L6). -/
def entriesCounted (s s' : State) : Nat :=
  match s.fill, s'.fill with
  | some l, some l' => if l.asked ≠ none ∧ l'.asked = none then 1 else 0
  | _, _ => 0

/-- The slots that the step from `s` to `s'` frees. -/
def slotsFreed (s s' : State) : Nat := s.planner.liveSlots - s'.planner.liveSlots

/-! ### Sums and targets (43_phases_and_invariants.md R152, R155) -/

/-- The steps in all slots, exactly (R152). -/
def Planner.stepSum (r : Planner) : Nat :=
  r.nextN[0].toNat + r.nextN[1].toNat + r.nextN[2].toNat + r.nextN[3].toNat

/-- The steps that the micro-step about to be taken publishes: P5's (42_filler.md R126). -/
def publishedBy : Option Micro → Nat
  | some (.p5 steps _ _ _) => steps.toNat
  | _ => 0

/-- The steps that the micro-step about to be taken takes off a count: one at G7 where steps are left,
and one at G8 (41_velocity_engine.md R100). -/
def retiredBy : Option Micro → Nat
  | some (.g7 l) => if l.n - 1 = 0 then 0 else 1
  | some (.g8 _) => 1
  | _ => 0

/-- Exactly `L` slots are live, from `head` on, and `tail` is the slot after them (R150). -/
def Planner.Live (r : Planner) (L : Nat) : Prop :=
  L ≤ 4 ∧ r.tail.val = (r.head.val + L) % 4 ∧ ∀ k : SlotIx, r.nextN[r.head + k] ≠ 0 ↔ k.val < L

/-- The deltas of the slots behind slot `i` lead from the target `v` of slot `i` through the targets of
the segments behind it, in order, to the speed planned last (R155). -/
def chain (dc : Vector Word 4) (planC : Word) : SlotIx → Word → List Word → Prop
  | _, v, [] => planC = v
  | i, v, w :: ws => dc[ringSucc i] = subMod w v ∧ chain dc planC (ringSucc i) w ws

/-- The live segments, from the head on, were queued with the speeds `v :: vs`, whatever `end_c` is
(R155). -/
def Planner.Queued (r : Planner) (v : Word) (vs : List Word) : Prop :=
  r.Live (vs.length + 1) ∧ chain r.nextDc r.planC r.head v vs

/-- They were, and the head segment's speed is in `end_c` (R155: "`end_c = vk`, exactly"). -/
def Planner.Tracks (r : Planner) (v : Word) (vs : List Word) : Prop :=
  r.Queued v vs ∧ r.endC = v

/-- The steps a command put into the queue, by its response (R152). -/
def queuedBy : Instr → Option Response → Nat
  | .put steps _, some ⟨.ok, _⟩ => steps.toNat
  | _, _ => 0

/-- The steps a command took out of the queue, by its response (R152). -/
def consumedBy : Instr → Option Response → Nat
  | .get _, some ⟨.ok, _⟩ => 1
  | _, _ => 0

/-! ### Runs of GETs (43_phases_and_invariants.md R157, R158) -/

/-- The registers after `k` GETs with the same clip bit. -/
def getTimes (cfg : Config) (clip : Bool) : Nat → Planner → Planner
  | 0, r => r
  | k + 1, r => getTimes cfg clip k (r.get cfg clip).1

/-- The distance between two intervals, exactly. -/
def distance (a b : Word) : Nat := (a.toNat - b.toNat) + (b.toNat - a.toNat)

/-! ### The other agent (20_memory.md R66) -/

/-- A command's micro-steps when the other agent leaves the registers at `env j` before its `j`-th
micro-step: what follows its first `k` micro-steps. -/
def driven (cfg : Config) (env : Nat → Planner) : Nat → Nat → Micro → After
  | 0, _, m => .go m
  | k + 1, j, m =>
    match (microStep cfg m (env j)).2 with
    | .go m' => driven cfg env k (j + 1) m'
    | .done rsp => .done rsp

/-- Along those micro-steps none writes a register. -/
def drivenReads (cfg : Config) (env : Nat → Planner) : Nat → Nat → Micro → Prop
  | 0, _, _ => True
  | k + 1, j, m =>
    (microStep cfg m (env j)).1 = env j ∧
      match (microStep cfg m (env j)).2 with
      | .go m' => drivenReads cfg env k (j + 1) m'
      | .done _ => True

/-- The number of micro-steps of a command (70_reset_and_hazards.md R193). FILL has none of its own: what
bounds its PUTs is `Obligations.FillInsertsAtMostTheFreeAndFreedSlots` and, for the refused one,
`Obligations.FillCountsWhatItQueued` (log 17). -/
def microBound : Instr → Nat
  | .init => 5
  | .put _ _ => 9
  | .full => 3
  | .empty => 3
  | .get _ => 14
  | .beginDda _ => 5
  | .reserved0 => 0
  | .reserved7 => 0
  | .reserved8toF _ => 0

/-! ### Runs -/

/-- `k` steps, stopping at the first fault or refusal: `Host.Core.run` of this machine. -/
def runFor : Nat → State → Host.Outcome State Fault Refusal
  | 0, s => .next s
  | k + 1, s =>
    match step s with
    | .next s' => runFor k s'
    | .fault f => .fault f
    | .refused r => .refused r

/-- What `count` finds in each of the first `k` steps, summed, up to the first fault or refusal. -/
def alongRun (count : State → State → Nat) : Nat → State → Nat
  | 0, _ => 0
  | k + 1, s =>
    match step s with
    | .next s' => count s s' + alongRun count k s'
    | _ => 0

/-- A step that goes on: it neither faults nor is refused (93_implementation_defined.md U1 to U3). -/
def SafeStep (s : State) : Prop := ∃ s', step s = .next s'

end Sys2Proof.Machine
end

