-- ==== Sys2Proof/Certificates/Slice0/Obligations.lean ====
section
/-! DEFINITION. The statements about TVP that the provers settle. Each docstring names the rule of spec/
it formalises, or the log entry it rests on. -/

open Sys2Proof Sys2Proof.Machine

/-! ### Encoding (spec/30_encoding.md) -/

/-- Decoding the word software writes for a command gives the command back, with every operand at every
value (R71, R72, R74, R81). -/
def Obligations.DecodeEncodeAgree : Prop :=
  ∀ i : Instr, i.wf = true → decode (encode i) = i

/-- A word is its three fields (R71), and decoding keeps the operation code and every operand bit of
R72, dropping exactly the fields R72 calls ignored. -/
def Obligations.DecodingKeepsEveryOperandBit : Prop :=
  ∀ w : CmdWord,
    w = wordOf (opField w) (aField w) (bField w) ∧
    encode (decode w) =
      wordOf (opField w)
        (if opField w = 2 then aField w else 0)
        (if opField w = 2 ∨ opField w = 6 then bField w
         else if opField w = 5 then bField w &&& 1 else 0)

/-- Words printed in the spec decode to the commands they stand for (R81's examples; 95 V3, V9, V29). -/
def Obligations.SpecWordsDecode : Prop :=
  decode 0x2000003E8000001F4 = .put 1000 500 ∧
  decode 0x50000000000000001 = .get true ∧
  decode 0x5DEADBEEFFFFFFFFE = .get false ∧
  decode 0x600000000000001F4 = .beginDda 500 ∧
  decode 0xFFFFFFFFFFFFFFFFF = .reserved8toF 0xF

/-- A reserved code is answered `ERR` with data 0 and changes no other state, on either port, presented
whole or to be run micro-step by micro-step (R78). The port is free (R70). That this holds before the first
INIT and during INIT is the model's reading of R75 (log 8). -/
def Obligations.ReservedCodesAnswerErr : Prop :=
  ∀ (s : State) (p : Port), s.busy p = false →
    (∀ w : CmdWord, opField w = 0 ∨ 7 ≤ (opField w).toNat →
      (∀ rest, s.inputs = .present p w :: rest →
        step s = .next ({ s with inputs := rest, port := p }.setRsp p (some ⟨.err, 0⟩))) ∧
      (∀ rest, s.inputs = .start p w :: rest →
        step s = .next ({ s with inputs := rest }.setRsp p (some ⟨.err, 0⟩)))) ∧
    (s.port = p →
      exec .reserved0 s = .next (s.setRsp p (some ⟨.err, 0⟩)) ∧
      exec .reserved7 s = .next (s.setRsp p (some ⟨.err, 0⟩)) ∧
      ∀ op, exec (.reserved8toF op) s = .next (s.setRsp p (some ⟨.err, 0⟩)))

/-- A command on a port that does not accept it is answered `ERR` with data 0 and changes no other
state: INIT and PUT on port C, GET and BEGIN on port P (R73). The port is free (R70). That this holds before
the first INIT and during INIT is the model's reading of R75 (log 8). -/
def Obligations.WrongPortAnswersErr : Prop :=
  ∀ (s : State),
    (s.port = .C → s.flightC = none →
      exec .init s = .next { s with rspC := some ⟨.err, 0⟩ } ∧
      ∀ steps speed, exec (.put steps speed) s = .next { s with rspC := some ⟨.err, 0⟩ }) ∧
    (s.port = .P → s.flightP = none → s.fill = none →
      (∀ clip, exec (.get clip) s = .next { s with rspP := some ⟨.err, 0⟩ }) ∧
      ∀ target, exec (.beginDda target) s = .next { s with rspP := some ⟨.err, 0⟩ })

/-- A response with a status other than `OK` carries data 0: every step keeps it so (R76). -/
def Obligations.FailureResponsesCarryZero : Prop :=
  ∀ s s' : State, s.RspInv → step s = .next s' → s'.RspInv

/-- When several conditions apply, the one reported is the first of: reserved code, port, PUT of 0 steps,
queue test (60_exceptions.md R166). For every command on a port free to take it. -/
def Obligations.FirstConditionIsReported : Prop :=
  ∀ (i : Instr) (s : State), s.ready → (i = .init → s.port = .P → s.flightC = none) →
    ∃ t, exec i s = .next t ∧
      (t.rsp s.port).map (·.status) = some (
        match i, s.port with
        | .reserved0, _ | .reserved7, _ | .reserved8toF _, _ => .err
        | .init, .P => .ok
        | .init, .C | .put _ _, .C => .err
        | .put steps _, .P =>
          if steps = 0 then .err
          else if s.planner.nextN[s.planner.tail] ≠ 0 then .full else .ok
        | .get _, .P | .beginDda _, .P => .err
        | .get _, .C | .beginDda _, .C =>
          if s.planner.nextN[s.planner.head] = 0 then .empty else .ok
        | .full, _ | .empty, _ => .ok)

/-! ### The step -/

/-- A step runs the command decoded from the word presented, on the port it was presented on. There is no
program counter (10_state.md R40): that the word comes from `inputs` is the model's choice (log 5). -/
def Obligations.StepRunsTheDecodedCommand : Prop :=
  ∀ (s : State) (p : Port) (w : CmdWord) (rest : List Event),
    s.inputs = .present p w :: rest →
    step s = exec (decode w) { s with inputs := rest, port := p }

/-- TVP has no exceptions: no step faults (60_exceptions.md R160). -/
def Obligations.NoStepFaults : Prop :=
  ∀ (s : State) (f : Fault), step s ≠ .fault f

/-- With nothing presented and nothing in flight the block holds its registers and does nothing
(60_exceptions.md R172). That such a step is a step at all is the model's choice (log 5). -/
def Obligations.IdleStepChangesNothing : Prop :=
  ∀ s : State, s.inputs = [] → s.quiet → step s = .next s

/-- With nothing presented, what is in flight goes on: the consumer's transaction first, and else the
producer's transaction or FILL call (60_exceptions.md R165: "a consumer command, once started, finishes
before the next producer micro-step"). That a step without input takes a micro-step at all is the model's
choice (log 5). -/
def Obligations.StepWithoutInputGoesOnConsumerFirst : Prop :=
  ∀ s : State, s.inputs = [] →
    (s.flightC ≠ none → step s = step { s with inputs := [.micro .C] }) ∧
    (s.flightC = none → step s = step { s with inputs := [.micro .P] })

/-- An input that names a port with a transaction in flight takes that transaction's next micro-step: its
writes, and then either the micro-step that follows, with the command word and every other field kept, or
the response, with the progress gone (00_scope.md R15, 10_state.md R35; log 5). -/
def Obligations.AMicroStepIsTakenOnItsPort : Prop :=
  ∀ (s : State) (p : Port) (f : Flight) (rest : List Event),
    s.inputs = .micro p :: rest → s.flight p = some f →
    step s = .next (
      match microStep Config.platform f.micro s.planner with
      | (r, .go m) => { s with inputs := rest, planner := r }.setFlight p (some ⟨f.word, m⟩)
      | (r, .done rsp) =>
        ({ s with inputs := rest, planner := r, inited := s.inited || f.micro.isInit }.setFlight p
          none).setRsp p (some rsp))

/-- A transaction whose micro-steps run with nothing between them is the whole command: the same
registers, response and refusal, for every word, on either port, from every state with no other input
(00_scope.md R15, 20_memory.md R62). Further micro-steps of an idle port change nothing (log 5). -/
def Obligations.UninterruptedMicroStepsAreTheCommand : Prop :=
  ∀ (s : State) (p : Port) (w : CmdWord), s.inputs = [] →
    runFor 15 { s with inputs := .start p w :: List.replicate 14 (.micro p) } =
      match exec (decode w) { s with port := p } with
      | .next t => .next { t with port := s.port }
      | .fault f => .fault f
      | .refused r => .refused r

/-- Every command ends within its number of micro-steps, whatever the other agent leaves in the
registers before each of them (20_memory.md R66, 70_reset_and_hazards.md R193). -/
def Obligations.EveryCommandEndsWhateverTheOtherAgentDoes : Prop :=
  ∀ (cfg : Config) (env : Nat → Planner) (i : Instr) (m : Micro), Micro.first i = some m →
    ∃ k rsp, k ≤ microBound i ∧ driven cfg env k 0 m = .done rsp

/-! ### Reset (spec/10_state.md R39, spec/42_filler.md R120, spec/70_reset_and_hazards.md R181) -/

/-- INIT gives every register its reset value from any state, the power-on state included, and answers
`OK`; the queue is then empty and not full and the block is in cruise (10_state.md R39). -/
def Obligations.InitGivesTheResetValues : Prop :=
  ∀ s : State, s.port = .P → s.quiet →
    ∃ r : Planner,
      exec .init s = .next { s with planner := r, inited := true, rspP := some ⟨.ok, 0⟩ } ∧
      r = { position := 0, velocity := 0, remainder := 0, accelPerTick := 0,
            currC := Config.platform.cStart, endC := Config.platform.cStart, accel := false,
            head := 0, tail := 0, nextN := #v[0, 0, 0, 0], nextDc := #v[0, 0, 0, 0],
            planC := Config.platform.cStart } ∧
      r.isEmpty = true ∧ r.isFull = false ∧ r.motion = .cruise

/-- `State.reset` is the state INIT leads to from power-on, but for the response INIT gives, which the
model takes as received (70_reset_and_hazards.md R181; log 4). -/
def Obligations.ResetIsInitFromPowerOn : Prop :=
  exec .init State.powerOn = .next { State.reset with rspP := some ⟨.ok, 0⟩ }

/-- `C_MIN ≤ C_START` for every configuration, and every pair that meets it is some configuration's
(00_scope.md R10; log 2). -/
def Obligations.StartIsNeverBelowMinimum : Prop :=
  (∀ cfg : Config, cfg.cMin ≤ cfg.cStart) ∧
  ∀ lo st : Word, lo ≤ st → ∃ cfg : Config, cfg.cMin = lo ∧ cfg.cStart = st

/-- Before the first INIT every other accepted command is refused by name (70_reset_and_hazards.md R184,
93 U1; log 3). -/
def Obligations.BeforeFirstInitCommandsAreRefused : Prop :=
  ∀ (i : Instr) (s : State), s.inited = false → s.busy s.port = false → i ≠ .init →
    acceptedOn i s.port = true → exec i s = .refused .beforeFirstInit

/-- A consumer command between INIT's micro-steps is refused by name, and so is INIT while a consumer
command is in flight (70_reset_and_hazards.md R186, 93 U2; log 9). -/
def Obligations.OverlapsOfInitAreRefused : Prop :=
  (∀ (i : Instr) (s : State), s.port = .C → s.flightC = none → s.inited = true →
    s.initInFlight = true → acceptedOn i .C = true → exec i s = .refused .initOverlap) ∧
  ∀ s : State, s.port = .P → s.flightP = none → s.fill = none → s.flightC ≠ none →
    exec .init s = .refused .initOverlap

/-- A second transaction on a port before the first has responded is refused by name, and so is one on
port P while FILL runs (70_reset_and_hazards.md R187, 93 U3; log 9). -/
def Obligations.SecondTransactionsAreRefused : Prop :=
  ∀ (i : Instr) (s : State),
    (s.port = .P → s.flightP ≠ none ∨ s.fill ≠ none → exec i s = .refused .portBusy) ∧
    (s.port = .C → s.flightC ≠ none → exec i s = .refused .portBusy)

/-! ### The queue (spec/40_queue.md, spec/42_filler.md) -/

/-- EMPTY answers bit 0 set exactly when the head slot's count is 0, and changes nothing else
(40_queue.md R90, presented whole). -/
def Obligations.EmptyReportsTheHeadSlot : Prop :=
  ∀ s : State, s.ready →
    exec .empty s = .next (s.setRsp s.port
      (some ⟨.ok, if s.planner.nextN[s.planner.head] = 0 then 1 else 0⟩))

/-- FULL answers bit 0 set exactly when the tail slot's count is not 0, and changes nothing else
(40_queue.md R91, presented whole). -/
def Obligations.FullReportsTheTailSlot : Prop :=
  ∀ s : State, s.ready →
    exec .full s = .next (s.setRsp s.port
      (some ⟨.ok, if s.planner.nextN[s.planner.tail] ≠ 0 then 1 else 0⟩))

/-- PUT of a non-zero step count into a free tail slot answers `OK` and writes that slot's delta and
count, `tail` and `plan_c`, and nothing else (42_filler.md R126). -/
def Obligations.PutQueuesTheSegment : Prop :=
  ∀ (steps speed : Word) (s : State), s.port = .P → s.readyP → steps ≠ 0 →
    s.planner.nextN[s.planner.tail] = 0 →
    exec (.put steps speed) s = .next { s with
      planner := { s.planner with
        nextDc := s.planner.nextDc.set s.planner.tail (speed - s.planner.planC)
        nextN := s.planner.nextN.set s.planner.tail steps
        tail := s.planner.tail + 1
        planC := speed }
      rspP := some ⟨.ok, 0⟩ }

/-- PUT of a non-zero step count on a full queue answers `FULL` and changes nothing else
(42_filler.md R126). -/
def Obligations.PutOnFullQueueChangesNothing : Prop :=
  ∀ (steps speed : Word) (s : State), s.port = .P → s.readyP → steps ≠ 0 →
    s.planner.nextN[s.planner.tail] ≠ 0 →
    exec (.put steps speed) s = .next { s with rspP := some ⟨.full, 0⟩ }

/-- PUT of 0 steps answers `ERR` and changes nothing else, whatever the queue holds
(42_filler.md R127). -/
def Obligations.PutOfZeroStepsAnswersErr : Prop :=
  ∀ (speed : Word) (s : State), s.port = .P → s.readyP →
    exec (.put 0 speed) s = .next { s with rspP := some ⟨.err, 0⟩ }

/-- BEGIN with a live head segment answers `OK` and writes `end_c` and `accel`, and nothing else
(42_filler.md R124). -/
def Obligations.BeginSetsTheTarget : Prop :=
  ∀ (target : Word) (s : State), s.port = .C → s.readyC →
    s.planner.nextN[s.planner.head] ≠ 0 →
    exec (.beginDda target) s = .next { s with
      planner := { s.planner with endC := target, accel := decide (s.planner.currC < target) }
      rspC := some ⟨.ok, 0⟩ }

/-- BEGIN with an empty queue answers `EMPTY` and changes nothing else (42_filler.md R124). -/
def Obligations.BeginOnEmptyQueueChangesNothing : Prop :=
  ∀ (target : Word) (s : State), s.port = .C → s.readyC →
    s.planner.nextN[s.planner.head] = 0 →
    exec (.beginDda target) s = .next { s with rspC := some ⟨.empty, 0⟩ }

/-! ### GET (spec/41_velocity_engine.md) -/

/-- GET with an empty queue answers `EMPTY` with data 0 and writes nothing (R101). -/
def Obligations.GetOnEmptyQueueWritesNothing : Prop :=
  ∀ (clip : Bool) (s : State), s.port = .C → s.readyC →
    s.planner.nextN[s.planner.head] = 0 →
    exec (.get clip) s = .next { s with rspC := some ⟨.empty, 0⟩ }

/-- GET on a head segment with steps to spare: one table word into `accel_per_tick`, one update of
`curr_c`, the flag, one step less, the new `curr_c` as the answer, and nothing else (R100, R102, R105,
R106, R108). -/
def Obligations.GetConsumesOneStep : Prop :=
  ∀ (clip : Bool) (s : State) (a c' : Word), s.port = .C → s.readyC →
    s.planner.nextN[s.planner.head] ≠ 0 → s.planner.nextN[s.planner.head] ≠ 1 →
    a = accelLookup Config.platform s.planner.currC →
    c' = velocityUpdate Config.platform.cMin s.planner.currC s.planner.endC s.planner.accel a clip →
    exec (.get clip) s = .next { s with
      planner := { s.planner with
        accelPerTick := a
        currC := c'
        accel := decide (c' < s.planner.endC)
        nextN := s.planner.nextN.set s.planner.head (s.planner.nextN[s.planner.head] - 1) }
      rspC := some ⟨.ok, c'⟩ }

/-- GET on the last step of the head segment with the next slot free: the same update, the slot retired,
`head` moved on, `end_c` kept (R100, R107). -/
def Obligations.GetRetiresTheLastSegment : Prop :=
  ∀ (clip : Bool) (s : State) (a c' : Word), s.port = .C → s.readyC →
    s.planner.nextN[s.planner.head] = 1 → s.planner.nextN[s.planner.head + 1] = 0 →
    a = accelLookup Config.platform s.planner.currC →
    c' = velocityUpdate Config.platform.cMin s.planner.currC s.planner.endC s.planner.accel a clip →
    exec (.get clip) s = .next { s with
      planner := { s.planner with
        accelPerTick := a
        currC := c'
        accel := decide (c' < s.planner.endC)
        nextN := s.planner.nextN.set s.planner.head 0
        head := s.planner.head + 1 }
      rspC := some ⟨.ok, c'⟩ }

/-- GET on the last step of the head segment with the next slot live: the same update, the slot retired,
`head` moved on, and the next segment's target and flag loaded; `curr_c` is not written by the load
(R100, R107, R108). -/
def Obligations.GetLoadsTheNextSegment : Prop :=
  ∀ (clip : Bool) (s : State) (a c' e' : Word), s.port = .C → s.readyC →
    s.planner.nextN[s.planner.head] = 1 → s.planner.nextN[s.planner.head + 1] ≠ 0 →
    a = accelLookup Config.platform s.planner.currC →
    c' = velocityUpdate Config.platform.cMin s.planner.currC s.planner.endC s.planner.accel a clip →
    e' = s.planner.endC + s.planner.nextDc[s.planner.head + 1] →
    exec (.get clip) s = .next { s with
      planner := { s.planner with
        accelPerTick := a
        currC := c'
        endC := e'
        accel := decide (c' < e')
        nextN := s.planner.nextN.set s.planner.head 0
        head := s.planner.head + 1 }
      rspC := some ⟨.ok, c'⟩ }

/-- The update as R103 writes it, over the integers: exact sum and difference, the clamp at the target,
the saturation and the floor. -/
def Obligations.VelocityUpdateIsExact : Prop :=
  ∀ (lo c e a : Word) (dir clip : Bool),
    ((velocityUpdate lo c e dir a clip).toNat : Int) =
      max (if c = e then (c.toNat : Int)
           else if dir = true then
             (if clip = true ∧ (c.toNat : Int) + a.toNat ≥ e.toNat then (e.toNat : Int)
              else min ((c.toNat : Int) + a.toNat) (2 ^ 32 - 1))
           else
             (if clip = true ∧ (c.toNat : Int) - a.toNat ≤ e.toNat then (e.toNat : Int)
              else max ((c.toNat : Int) - a.toNat) 0))
        lo.toNat

/-- The lookup takes the table word at `c` shifted right by `ACCEL_P_SHIFT`, or the last word where that
runs past the table (20_memory.md R56); with the shift at 16 the index is bits [31:16]. -/
def Obligations.LookupClampsItsIndex : Prop :=
  ∀ (cfg : Config) (c : Word),
    accelLookup cfg c =
      cfg.accelP.getD (min (c.toNat / 2 ^ cfg.accelPShift.val) (cfg.accelTableLen - 1)) 0 ∧
    (cfg.accelPShift = 16 → c.toNat / 2 ^ 16 < cfg.accelTableLen →
      (accelIndex cfg c).val = (c.extractLsb' 16 16).toNat)

/-- Cruise: at the target `curr_c` does not change, whatever the flag, the table word and the clip bit
are (R104); with `clip` and the target not below the floor, an update towards the target never passes it
(R109). -/
def Obligations.UpdateHoldsAndNeverPassesTheTarget : Prop :=
  (∀ (lo c a : Word) (dir clip : Bool), lo ≤ c → velocityUpdate lo c c dir a clip = c) ∧
  ∀ (lo c e a : Word), lo ≤ e →
    (c < e → velocityUpdate lo c e true a true ≤ e ∧ c ≤ velocityUpdate lo c e true a true) ∧
    (e < c → e ≤ velocityUpdate lo c e false a true ∧ velocityUpdate lo c e false a true ≤ c)

/-- Convergence with `clip` (43_phases_and_invariants.md R157): with the flag right, the target not below
`C_MIN`, `k` steps in the head segment, and every table word used before the target is reached at least
`m`, after `k` GETs the distance to the target has shrunk by `k * m` or to 0; it never grows, and
`curr_c` stays on its side of the target. -/
def Obligations.ClippedGetsConverge : Prop :=
  ∀ (cfg : Config) (r : Planner) (m k : Nat),
    r.flagRight → cfg.cMin ≤ r.endC → k ≤ r.nextN[r.head].toNat →
    (∀ j, j < k → (getTimes cfg true j r).currC ≠ r.endC →
      m ≤ (accelLookup cfg (getTimes cfg true j r).currC).toNat) →
    distance (getTimes cfg true k r).currC r.endC ≤ distance r.currC r.endC - k * m ∧
    (r.currC ≤ r.endC → (getTimes cfg true k r).currC ≤ r.endC) ∧
    (r.endC ≤ r.currC → r.endC ≤ (getTimes cfg true k r).currC)

/-- Bounded overshoot without `clip` (43_phases_and_invariants.md R158): while the distance is more than
the table word a GET takes it down by that word; and once `curr_c` is within `bound` of the target, with
every table word used at most `bound`, it stays within `bound` for the rest of the segment. -/
def Obligations.UnclippedGetsStayWithinOneWord : Prop :=
  ∀ (cfg : Config) (r : Planner), r.flagRight → cfg.cMin ≤ r.endC → cfg.cMin ≤ r.currC →
    r.nextN[r.head] ≠ 0 →
    ((accelLookup cfg r.currC).toNat ≤ distance r.currC r.endC →
      distance (r.get cfg false).1.currC r.endC =
        distance r.currC r.endC - (accelLookup cfg r.currC).toNat) ∧
    ((accelLookup cfg r.currC).toNat > distance r.currC r.endC → r.currC ≠ r.endC →
      distance (r.get cfg false).1.currC r.endC < (accelLookup cfg r.currC).toNat) ∧
    ∀ bound k : Nat, distance r.currC r.endC < bound → k ≤ r.nextN[r.head].toNat →
      (∀ j, j < k → (accelLookup cfg (getTimes cfg false j r).currC).toNat ≤ bound) →
      distance (getTimes cfg false k r).currC r.endC < bound

/-! ### Invariants of every step (spec/43_phases_and_invariants.md) -/

/-- Every step, of any interleaving of the micro-steps of both agents, keeps the ring invariant: the live
slots are contiguous, and a PUT in flight owns the free slot it writes (R150, R153). -/
def Obligations.EveryStepKeepsTheRing : Prop :=
  ∀ s s' : State, s.RingInv → step s = .next s' → s'.RingInv

/-- Every step, of any interleaving, keeps the flag right wherever no consumer command is between the
write of `curr_c` or `end_c` and that of `accel` (R154). -/
def Obligations.EveryStepKeepsTheFlag : Prop :=
  ∀ s s' : State, s.FlagInv → step s = .next s' → s'.FlagInv

/-- Every step, of any interleaving, keeps `curr_c` at or above `C_MIN` (R156). -/
def Obligations.EveryStepKeepsTheFloor : Prop :=
  ∀ s s' : State, s.FloorInv → step s = .next s' → s'.FloorInv

/-- The state after reset and the state at power-on meet the invariants. What they hold beside the registers
is the model's choice (log 3, 4). -/
def Obligations.ResetMeetsTheInvariants : Prop :=
  (State.reset.RingInv ∧ State.reset.FlagInv ∧ State.reset.FloorInv ∧ State.reset.RspInv ∧
    State.reset.FillInv ∧ State.reset.FillWaits) ∧
  State.powerOn.RingInv ∧ State.powerOn.FlagInv ∧ State.powerOn.FloorInv

/-- The sentinel tests are exact: outside the windows G8 to G9 and P5 to P6, the head slot is free
exactly when no slot is live, and the tail slot is live exactly when all four are (R151). -/
def Obligations.SentinelTestsAreExact : Prop :=
  ∀ s : State, s.RingInv → s.inited = true → s.initInFlight = false →
    (∀ l, s.microOn .C ≠ some (.g9 l)) → (∀ n v t p, s.microOn .P ≠ some (.p6 n v t p)) →
    ∃ L, s.planner.Live L ∧
      (s.planner.nextN[s.planner.head] = 0 ↔ L = 0) ∧
      (s.planner.nextN[s.planner.tail] ≠ 0 ↔ L = 4)

/-- No live slot is lost or torn: a step that is no INIT leaves the delta of every live slot as it is,
takes at most one step off its count, and makes no free slot live but the one `tail` names (R61,
R153). -/
def Obligations.LiveSlotsAreNeverOverwritten : Prop :=
  ∀ s s' : State, s.RingInv → s.inited = true → s.initInFlight = false →
    (∀ w rest, s.inputs = .present .P w :: rest → decode w ≠ .init) → step s = .next s' →
    ∀ i : SlotIx,
      (s.planner.nextN[i] ≠ 0 →
        s'.planner.nextDc[i] = s.planner.nextDc[i] ∧
        (s'.planner.nextN[i] = s.planner.nextN[i] ∨
          s'.planner.nextN[i] = s.planner.nextN[i] - 1)) ∧
      (s.planner.nextN[i] = 0 → s'.planner.nextN[i] ≠ 0 → i = s.planner.tail)

/-- `head` and `tail` move modulo 4, by at most one slot a step, in any interleaving without INIT
(10_state.md R37 c; 40_queue.md R94). -/
def Obligations.CursorsMoveOneSlotAtATime : Prop :=
  ∀ s s' : State, s.RingInv → s.inited = true → s.initInFlight = false →
    (∀ w rest, s.inputs = .present .P w :: rest → decode w ≠ .init) → step s = .next s' →
    (s'.planner.head = s.planner.head ∨ s'.planner.head = s.planner.head + 1) ∧
    (s'.planner.tail = s.planner.tail ∨ s'.planner.tail = s.planner.tail + 1)

/-- Each agent writes only its own registers, micro-step by micro-step and in whole commands: the
producer's commands but INIT never the consumer's registers, the consumer's never the producer's, and
neither `position`, `velocity` or `remainder`. Of the slots, the producer writes only the one `tail` names,
while it is free; the consumer writes only the count of the one `head` names, and takes one step off it
(60_exceptions.md R169, 10_state.md R41). -/
def Obligations.EachAgentWritesItsOwnRegisters : Prop :=
  (∀ (cfg : Config) (m : Micro) (r : Planner), m.isInit = false →
    let r' := (microStep cfg m r).1
    r'.position = r.position ∧ r'.velocity = r.velocity ∧ r'.remainder = r.remainder ∧
    (m.ofPort .P = true → r'.currC = r.currC ∧ r'.endC = r.endC ∧ r'.accel = r.accel ∧
      r'.accelPerTick = r.accelPerTick ∧ r'.head = r.head) ∧
    (m.ofPort .C = true → r'.tail = r.tail ∧ r'.planC = r.planC ∧ r'.nextDc = r.nextDc)) ∧
  (∀ (s : State) (m : Micro) (i : SlotIx), s.RingInv →
    let r' := (microStep Config.platform m s.planner).1
    (s.microOn .P = some m → m.isInit = false →
      (r'.nextDc[i] ≠ s.planner.nextDc[i] → i = s.planner.tail ∧ s.planner.nextN[i] = 0) ∧
      (r'.nextN[i] ≠ s.planner.nextN[i] → i = s.planner.tail ∧ s.planner.nextN[i] = 0)) ∧
    (s.microOn .C = some m →
      r'.nextN[i] ≠ s.planner.nextN[i] →
        i = s.planner.head ∧ r'.nextN[i].toNat + 1 = s.planner.nextN[i].toNat)) ∧
  ∀ (i : Instr) (s t : State), i ≠ .init → exec i s = .next t →
    t.planner.position = s.planner.position ∧ t.planner.velocity = s.planner.velocity ∧
    t.planner.remainder = s.planner.remainder ∧
    (s.port = .P → t.planner.currC = s.planner.currC ∧ t.planner.endC = s.planner.endC ∧
      t.planner.accel = s.planner.accel ∧ t.planner.accelPerTick = s.planner.accelPerTick ∧
      t.planner.head = s.planner.head ∧
      ∀ j : SlotIx,
        (t.planner.nextDc[j] ≠ s.planner.nextDc[j] ∨ t.planner.nextN[j] ≠ s.planner.nextN[j]) →
          j = s.planner.tail ∧ s.planner.nextN[j] = 0) ∧
    (s.port = .C → t.planner.tail = s.planner.tail ∧ t.planner.planC = s.planner.planC ∧
      t.planner.nextDc = s.planner.nextDc ∧
      ∀ j : SlotIx, t.planner.nextN[j] ≠ s.planner.nextN[j] →
        j = s.planner.head ∧ t.planner.nextN[j].toNat + 1 = s.planner.nextN[j].toNat)

/-- A command that answers a status other than `OK` writes no register: as a whole command, and in every
one of its micro-steps whatever the other agent does between them (60_exceptions.md R167). -/
def Obligations.FailedCommandsWriteNoRegister : Prop :=
  (∀ (i : Instr) (s t : State) (rsp : Response), exec i s = .next t →
    t.rsp s.port = some rsp → rsp.status ≠ .ok → t.planner = s.planner) ∧
  ∀ (cfg : Config) (env : Nat → Planner) (i : Instr) (m : Micro) (k : Nat) (rsp : Response),
    Micro.first i = some m → driven cfg env k 0 m = .done rsp → rsp.status ≠ .ok →
    drivenReads cfg env k 0 m

/-- Conservation (R152), command by command: what a command puts into the queue and takes out of it
accounts for the change of the sum of the counts. -/
def Obligations.StepsAreConserved : Prop :=
  ∀ (i : Instr) (s t : State), i ≠ .init → exec i s = .next t →
    t.planner.stepSum + consumedBy i (t.rsp s.port) =
      s.planner.stepSum + queuedBy i (t.rsp s.port)

/-- Conservation (R152) at every step of every interleaving, INIT apart: a command presented whole accounts
for the change by its response; any other step adds to the sum of the counts exactly the steps published at
P5, and takes off one exactly at the G7 that leaves steps and at G8. -/
def Obligations.StepsAreConservedAtEveryStep : Prop :=
  ∀ s s' : State, s.RingInv → s.NoInitNext → step s = .next s' →
    (∀ p w rest, s.inputs = .present p w :: rest →
      s'.planner.stepSum + consumedBy (decode w) (s'.rsp p) =
        s.planner.stepSum + queuedBy (decode w) (s'.rsp p)) ∧
    ((∀ p w rest, s.inputs ≠ .present p w :: rest) →
      s'.planner.stepSum + retiredBy s.microTaken = s.planner.stepSum + publishedBy s.microTaken)

/-- Phase transitions (R142), command by command, a consumer's command between P5 and P6 of a PUT
included; for PUT, from a state whose live slots are contiguous. -/
def Obligations.OnlyTheseEventsChangeAPhase : Prop :=
  ∀ (i : Instr) (s t : State) (rsp : Response), exec i s = .next t → t.rsp s.port = some rsp →
    (rsp.status ≠ .ok ∨ i = .full ∨ i = .empty →
      t.planner.occupancy = s.planner.occupancy ∧ t.planner.motion = s.planner.motion) ∧
    (rsp.status = .ok →
      match i with
      | .init => t.planner.occupancy = .idle ∧ t.planner.motion = .cruise
      | .put _ _ =>
        t.planner.motion = s.planner.motion ∧
        ∀ L, s.planner.Live L → t.planner.occupancy = .draining
      | .beginDda target =>
        s.planner.occupancy = .draining ∧ t.planner.occupancy = .draining ∧
        t.planner.motion = motionOf s.planner.currC target
      | .get _ =>
        s.planner.occupancy = .draining ∧
        if s.planner.nextN[s.planner.head] ≠ 1 then
          t.planner.occupancy = .draining ∧
          t.planner.motion = motionOf t.planner.currC s.planner.endC
        else if s.planner.nextN[s.planner.head + 1] ≠ 0 then
          t.planner.occupancy = .draining ∧
          t.planner.motion =
            motionOf t.planner.currC (s.planner.endC + s.planner.nextDc[s.planner.head + 1])
        else
          t.planner.occupancy = .idle ∧
          t.planner.motion = motionOf t.planner.currC s.planner.endC
      | _ => True)

/-- What a GET answered `OK` does to the motion phase against the target it ran towards (R142): CRUISE stays
CRUISE. A ramp stays itself while the table word is less than the distance; else with `clip` it becomes
CRUISE, and without `clip` it turns round, but for an exact landing (95 V40) and for a target at the end of
the range, where saturation or the floor stops `curr_c` on it (R103; 95 V45). The flag is right and neither
`curr_c` nor `end_c` is below `C_MIN`. -/
def Obligations.GetMovesTheMotionPhase : Prop :=
  ∀ (clip : Bool) (s t : State) (d : Word), s.port = .C → s.planner.flagRight →
    Config.platform.cMin ≤ s.planner.currC → Config.platform.cMin ≤ s.planner.endC →
    exec (.get clip) s = .next t → t.rspC = some ⟨.ok, d⟩ →
    let a := (accelLookup Config.platform s.planner.currC).toNat
    let gap := distance s.planner.currC s.planner.endC
    d = t.planner.currC ∧
    motionOf d s.planner.endC =
      match s.planner.motion with
      | .cruise => .cruise
      | .rampUp =>
        if a < gap then .rampUp
        else if clip = true ∨ a = gap ∨ s.planner.endC = 0xFFFFFFFF then .cruise else .rampDown
      | .rampDown =>
        if a < gap then .rampDown
        else if clip = true ∨ a = gap ∨ s.planner.endC = Config.platform.cMin then .cruise
        else .rampUp

/-- Target tracking (R155). The deltas of the live segments lead from each segment's speed to the next: a
PUT into an empty queue begins this, a PUT behind live segments extends it, GET keeps it and moves it on.
BEGIN with the head segment's speed puts that speed in `end_c`, however many segments are queued; from then
on, while a segment is the head segment, `end_c` is exactly its speed: PUT and GET keep it so, and the load
of the next segment moves it on. -/
def Obligations.EndCIsTheHeadSegmentsSpeed : Prop :=
  (∀ (s t : State), s.port = .P → exec .init s = .next t → t.planner.Live 0) ∧
  (∀ (s t : State) (w steps : Word), s.port = .P → s.planner.Live 0 →
    exec (.put steps w) s = .next t → t.rspP = some ⟨.ok, 0⟩ → t.planner.Queued w []) ∧
  (∀ (s t : State) (v : Word) (vs : List Word), s.port = .C → s.planner.Queued v vs →
    exec (.beginDda v) s = .next t → t.planner.Tracks v vs) ∧
  (∀ (s t : State) (v w steps : Word) (vs : List Word), s.port = .P → s.planner.Queued v vs →
    exec (.put steps w) s = .next t → t.rspP = some ⟨.ok, 0⟩ →
    t.planner.Queued v (vs ++ [w]) ∧ (s.planner.Tracks v vs → t.planner.Tracks v (vs ++ [w]))) ∧
  (∀ (s t : State) (v : Word) (vs : List Word) (clip : Bool), s.port = .C → s.planner.Queued v vs →
    exec (.get clip) s = .next t → s.planner.nextN[s.planner.head] ≠ 1 →
    t.planner.Queued v vs ∧ (s.planner.Tracks v vs → t.planner.Tracks v vs)) ∧
  (∀ (s t : State) (v w : Word) (vs : List Word) (clip : Bool), s.port = .C →
    s.planner.Queued v (w :: vs) → s.planner.nextN[s.planner.head] = 1 →
    exec (.get clip) s = .next t →
    t.planner.Queued w vs ∧ (s.planner.Tracks v (w :: vs) → t.planner.Tracks w vs)) ∧
  ∀ (s t : State) (v : Word) (clip : Bool), s.port = .C → s.planner.Queued v [] →
    s.planner.nextN[s.planner.head] = 1 → exec (.get clip) s = .next t → t.planner.Live 0

/-! ### FILL (spec/42_filler.md R128, R129) -/

/-- The entry FILL takes from any policy has at least one step and no more than are left, and a proposal
that meets that bound is taken as it is (R129). That a proposal outside the bound is brought into it is the
model's choice (log 6). -/
def Obligations.FillEntriesAreWithinTheRequest : Prop :=
  ∀ (cfg : Config) (d : Descriptor), d.queuedSteps < d.totalSteps →
    (fillEntry cfg d).1 ≠ 0 ∧ (fillEntry cfg d).1 ≤ d.totalSteps - d.queuedSteps ∧
    ((cfg.fillProposal d).1 ≠ 0 → (cfg.fillProposal d).1 ≤ d.totalSteps - d.queuedSteps →
      fillEntry cfg d = cfg.fillProposal d)

/-- Every step keeps every descriptor within its request: no more steps are queued than were asked for
(43_phases_and_invariants.md R159); and a running FILL call always has its descriptor. The owner's own write
does not ask for fewer steps than before. -/
def Obligations.FillNeverQueuesTooMuch : Prop :=
  ∀ s s' : State, s.FillInv → s.NoShortening → step s = .next s' → s'.FillInv

/-- The owner of the descriptors creates one with nothing queued and changes its requests in place, and
nothing else changes; `queued_steps` is not its to write (42_filler.md R130, 10_state.md R36; that these are
inputs of the machine is the model's choice, log 6). -/
def Obligations.OwnersWriteTheirDescriptors : Prop :=
  ∀ (s : State) (n v : Word) (rest : List Event),
    (s.inputs = .create n v :: rest →
      step s = .next { s with inputs := rest, ddas := s.ddas ++ [⟨n, v, 0⟩] }) ∧
    ∀ ref, s.inputs = .amend ref n v :: rest →
      (∀ d, s.descriptor ref = some d →
        step s = .next { s with inputs := rest, ddas := s.ddas.set ref ⟨n, v, d.queuedSteps⟩ }) ∧
      (s.descriptor ref = none → step s = .next { s with inputs := rest })

/-- A FILL call begins with `done` at 0 and no PUT asked for (42_filler.md R128 L0). It takes off what the
last call returned, which is the model's choice (log 6), and changes nothing else. It is refused by name
beside a command in flight or another FILL call (70_reset_and_hazards.md R187), before the first INIT
(R184), and without a descriptor, the last of which is the model's choice (log 6). -/
def Obligations.FillBeginsOrIsRefused : Prop :=
  ∀ (s : State) (ref : Nat) (rest : List Event), s.inputs = .fill ref :: rest →
    (s.readyP → ∀ d, s.descriptor ref = some d →
      step s = .next { s with inputs := rest, fill := some ⟨ref, 0, none⟩, fillResult := none }) ∧
    (s.flightP ≠ none ∨ s.fill ≠ none → step s = .refused .portBusy) ∧
    (s.flightP = none → s.fill = none → s.inited = false → step s = .refused .beforeFirstInit) ∧
    (s.readyP → s.descriptor ref = none → step s = .refused .noDescriptor)

/-- FILL counts what its PUTs queued: the answer `OK` adds the PUT's steps to the descriptor's
`queued_steps` and to `done`, any other answer ends the call with the descriptor as it is (42_filler.md R128
L4 to L7). On a descriptor fully queued it issues no PUT and returns: `done` as it stands, and 0 right after
the call (R159). Which of the loop's lines make one step is the model's choice (log 6). -/
def Obligations.FillCountsWhatItQueued : Prop :=
  (∀ (s : State) (l : FillLoop) (d : Descriptor) (steps : Word) (rest : List Event) (rsp : Response),
    s.inputs = .micro .P :: rest → s.flightP = none → s.fill = some l →
    s.descriptor l.ref = some d → l.asked = some steps → s.rspP = some rsp →
    step s = .next (
      if rsp.status = .ok then
        { s with inputs := rest,
                 ddas := s.ddas.set l.ref ⟨d.totalSteps, d.targetC, d.queuedSteps + steps⟩,
                 fill := some ⟨l.ref, l.done + steps, none⟩ }
      else { s with inputs := rest, fill := none, fillResult := some l.done })) ∧
  (∀ (s : State) (l : FillLoop) (d : Descriptor) (rest : List Event),
    s.inputs = .micro .P :: rest → s.flightP = none → s.fill = some l →
    s.descriptor l.ref = some d → l.asked = none → d.totalSteps ≤ d.queuedSteps →
    step s = .next { s with inputs := rest, fill := none, fillResult := some l.done }) ∧
  ∀ (s : State) (ref : Nat) (d : Descriptor) (rest : List Event),
    s.inputs = .fill ref :: .micro .P :: rest → s.readyP → s.descriptor ref = some d →
    d.totalSteps ≤ d.queuedSteps →
    runFor 2 s = .next { s with inputs := rest, fillResult := some 0 }

/-- FILL issues the PUT its policy gives for the descriptor as it stands, on port P, and waits for its
response (42_filler.md R128 L1 to L3), in one step (log 6): wherever steps are left, whatever it has queued
so far and whatever the queue holds (log 17). -/
def Obligations.FillIssuesThePolicysPut : Prop :=
  ∀ (s : State) (l : FillLoop) (d : Descriptor) (rest : List Event) (n v : Word),
    s.inputs = .micro .P :: rest → s.flightP = none → s.inited = true → s.fill = some l →
    s.descriptor l.ref = some d → l.asked = none →
    d.queuedSteps < d.totalSteps → (n, v) = fillEntry Config.platform d →
    step s = .next { s with
      inputs := rest
      fill := some ⟨l.ref, l.done, some n⟩
      flightP := some ⟨encode (.put n v), .p0 n v⟩
      rspP := none }

/-- A FILL call goes on "until either the descriptor is fully queued or the queue becomes full" (42_filler.md
R128): the step that ends it finds the descriptor fully queued with no PUT asked for (L1), or its PUT
answered `FULL` (L4); it returns `done` (L7), and leaves the registers and every descriptor as they are.
That it ends nowhere else, not after four entries either, whatever slots are freed meanwhile, is the
model's choice against R128's "0–4 entries" and the bound of 70_reset_and_hazards.md R193 (DEDUCED, log 17);
that L1 and L7, or L4 and L7, are one step is the model's choice (DESIGN CHOICE, log 6). -/
def Obligations.FillReturnsOnlyWhenQueuedOrFull : Prop :=
  ∀ (s s' : State) (l : FillLoop), s.FillWaits → s.fill = some l → step s = .next s' →
    s'.fill = none →
    s'.fillResult = some l.done ∧ s'.planner = s.planner ∧ s'.ddas = s.ddas ∧ s.flightP = none ∧
    ∃ d, s.descriptor l.ref = some d ∧
      ((l.asked = none ∧ d.totalSteps ≤ d.queuedSteps) ∨
       (l.asked ≠ none ∧ ∃ r, s.rspP = some r ∧ r.status = .full))

/-- Every step of every interleaving keeps a running FILL call waiting for its own PUT and for nothing else,
and that PUT is never answered `ERR` (42_filler.md R128 L3, L4; R129; 70_reset_and_hazards.md R187). -/
def Obligations.FillWaitsForItsOwnPut : Prop :=
  ∀ s s' : State, s.FillWaits → step s = .next s' → s'.FillWaits

/-- From the call, or any point where it has no PUT asked for, a FILL call inserts at most as many entries as
there are free slots and slots freed while it runs, in any interleaving; so while none is freed it inserts
at most four (42_filler.md R128: "0–4 entries"; 43_phases_and_invariants.md R150). The lines L1 to L4 have no
other bound (log 17). -/
def Obligations.FillInsertsAtMostTheFreeAndFreedSlots : Prop :=
  ∀ (k : Nat) (s : State) (l : FillLoop), s.RingInv → s.fill = some l → l.asked = none →
    s.flightP = none →
    (∀ (j : Nat) (t : State), j < k → runFor j s = .next t → t.fill ≠ none) →
    alongRun entriesCounted k s + s.planner.liveSlots ≤ 4 + alongRun slotsFreed k s ∧
    (alongRun slotsFreed k s = 0 → alongRun entriesCounted k s ≤ 4)

/-- The PUT of a FILL call meets the queue at its own P2 and not before, as every PUT does (20_memory.md R62,
42_filler.md R126). A live slot there answers it `FULL`, and the call then returns; a free one lets it go on.
So a GET that retires that slot right before P2 lets through a PUT that was issued on a full queue. That the
refusal and the return are exactly two steps of port P, L4 and L7 being one, is the model's choice (DESIGN
CHOICE, log 6), and so is the list of inputs that says whose step comes next (DESIGN CHOICE, log 5). -/
def Obligations.FillsPutIsDecidedAtItsP2 : Prop :=
  ∀ (s : State) (l : FillLoop) (d : Descriptor) (w : CmdWord) (n v : Word) (t : SlotIx)
    (rest : List Event),
    s.fill = some l → l.asked = some n → s.descriptor l.ref = some d →
    s.flightP = some ⟨w, .p2 n v t⟩ →
    (s.inputs = .micro .P :: .micro .P :: rest → s.planner.nextN[t] ≠ 0 →
      runFor 2 s = .next { s with
        inputs := rest, flightP := none, rspP := some ⟨.full, 0⟩
        fill := none, fillResult := some l.done }) ∧
    (s.inputs = .micro .P :: rest → s.planner.nextN[t] = 0 →
      step s = .next { s with inputs := rest, flightP := some ⟨w, .p3 n v t⟩ }) ∧
    ∀ clip : Bool, s.inputs = .present .C (encode (.get clip)) :: .micro .P :: rest →
      s.inited = true → s.flightC = none → t = s.planner.head → s.planner.nextN[t] = 1 →
      ∃ s', runFor 2 s = .next s' ∧ s'.flightP = some ⟨w, .p3 n v t⟩ ∧ s'.fill = s.fill ∧
        s'.rspP = s.rspP ∧ s'.planner.nextN = s.planner.nextN.set t 0
end

