-- ==== Sys2Proof/Laws/State.lean ====
section
/-! SUPPORT. What each update of the state leaves and writes, field by field, true by unfolding, so that no
later proof unfolds a record update. -/

namespace Sys2Proof.Machine

/-! ### Slot writes -/

@[simp] theorem slotWrite_position (r : Planner) (f : SlotField) (i : SlotIx) (v : Word) :
    (r.slotWrite f i v).position = r.position := by cases f <;> rfl

@[simp] theorem slotWrite_velocity (r : Planner) (f : SlotField) (i : SlotIx) (v : Word) :
    (r.slotWrite f i v).velocity = r.velocity := by cases f <;> rfl

@[simp] theorem slotWrite_remainder (r : Planner) (f : SlotField) (i : SlotIx) (v : Word) :
    (r.slotWrite f i v).remainder = r.remainder := by cases f <;> rfl

@[simp] theorem slotWrite_accelPerTick (r : Planner) (f : SlotField) (i : SlotIx) (v : Word) :
    (r.slotWrite f i v).accelPerTick = r.accelPerTick := by cases f <;> rfl

@[simp] theorem slotWrite_currC (r : Planner) (f : SlotField) (i : SlotIx) (v : Word) :
    (r.slotWrite f i v).currC = r.currC := by cases f <;> rfl

@[simp] theorem slotWrite_endC (r : Planner) (f : SlotField) (i : SlotIx) (v : Word) :
    (r.slotWrite f i v).endC = r.endC := by cases f <;> rfl

@[simp] theorem slotWrite_accel (r : Planner) (f : SlotField) (i : SlotIx) (v : Word) :
    (r.slotWrite f i v).accel = r.accel := by cases f <;> rfl

@[simp] theorem slotWrite_head (r : Planner) (f : SlotField) (i : SlotIx) (v : Word) :
    (r.slotWrite f i v).head = r.head := by cases f <;> rfl

@[simp] theorem slotWrite_tail (r : Planner) (f : SlotField) (i : SlotIx) (v : Word) :
    (r.slotWrite f i v).tail = r.tail := by cases f <;> rfl

@[simp] theorem slotWrite_planC (r : Planner) (f : SlotField) (i : SlotIx) (v : Word) :
    (r.slotWrite f i v).planC = r.planC := by cases f <;> rfl

@[simp] theorem slotWrite_n_nextN (r : Planner) (i : SlotIx) (v : Word) :
    (r.slotWrite .n i v).nextN = r.nextN.set i v := rfl

@[simp] theorem slotWrite_n_nextDc (r : Planner) (i : SlotIx) (v : Word) :
    (r.slotWrite .n i v).nextDc = r.nextDc := rfl

@[simp] theorem slotWrite_dc_nextN (r : Planner) (i : SlotIx) (v : Word) :
    (r.slotWrite .dc i v).nextN = r.nextN := rfl

@[simp] theorem slotWrite_dc_nextDc (r : Planner) (i : SlotIx) (v : Word) :
    (r.slotWrite .dc i v).nextDc = r.nextDc.set i v := rfl

@[simp] theorem slotRead_n (r : Planner) (i : SlotIx) : r.slotRead .n i = r.nextN[i] := rfl

@[simp] theorem slotRead_dc (r : Planner) (i : SlotIx) : r.slotRead .dc i = r.nextDc[i] := rfl

/-! ### insert -/

@[simp] theorem insert_position (r : Planner) (t : SlotIx) (n d : Word) :
    (r.insert t n d).position = r.position := rfl

@[simp] theorem insert_velocity (r : Planner) (t : SlotIx) (n d : Word) :
    (r.insert t n d).velocity = r.velocity := rfl

@[simp] theorem insert_remainder (r : Planner) (t : SlotIx) (n d : Word) :
    (r.insert t n d).remainder = r.remainder := rfl

@[simp] theorem insert_accelPerTick (r : Planner) (t : SlotIx) (n d : Word) :
    (r.insert t n d).accelPerTick = r.accelPerTick := rfl

@[simp] theorem insert_currC (r : Planner) (t : SlotIx) (n d : Word) :
    (r.insert t n d).currC = r.currC := rfl

@[simp] theorem insert_endC (r : Planner) (t : SlotIx) (n d : Word) :
    (r.insert t n d).endC = r.endC := rfl

@[simp] theorem insert_accel (r : Planner) (t : SlotIx) (n d : Word) :
    (r.insert t n d).accel = r.accel := rfl

@[simp] theorem insert_head (r : Planner) (t : SlotIx) (n d : Word) :
    (r.insert t n d).head = r.head := rfl

@[simp] theorem insert_planC (r : Planner) (t : SlotIx) (n d : Word) :
    (r.insert t n d).planC = r.planC := rfl

@[simp] theorem insert_tail (r : Planner) (t : SlotIx) (n d : Word) :
    (r.insert t n d).tail = ringSucc t := rfl

@[simp] theorem insert_nextN (r : Planner) (t : SlotIx) (n d : Word) :
    (r.insert t n d).nextN = r.nextN.set t n := rfl

@[simp] theorem insert_nextDc (r : Planner) (t : SlotIx) (n d : Word) :
    (r.insert t n d).nextDc = r.nextDc.set t d := rfl

/-! ### advance_head -/

@[simp] theorem advanceHead_position (r : Planner) (h : SlotIx) :
    (r.advanceHead h).position = r.position := rfl

@[simp] theorem advanceHead_velocity (r : Planner) (h : SlotIx) :
    (r.advanceHead h).velocity = r.velocity := rfl

@[simp] theorem advanceHead_remainder (r : Planner) (h : SlotIx) :
    (r.advanceHead h).remainder = r.remainder := rfl

@[simp] theorem advanceHead_accelPerTick (r : Planner) (h : SlotIx) :
    (r.advanceHead h).accelPerTick = r.accelPerTick := rfl

@[simp] theorem advanceHead_currC (r : Planner) (h : SlotIx) :
    (r.advanceHead h).currC = r.currC := rfl

@[simp] theorem advanceHead_endC (r : Planner) (h : SlotIx) :
    (r.advanceHead h).endC = r.endC := rfl

@[simp] theorem advanceHead_accel (r : Planner) (h : SlotIx) :
    (r.advanceHead h).accel = r.accel := rfl

@[simp] theorem advanceHead_tail (r : Planner) (h : SlotIx) :
    (r.advanceHead h).tail = r.tail := rfl

@[simp] theorem advanceHead_nextDc (r : Planner) (h : SlotIx) :
    (r.advanceHead h).nextDc = r.nextDc := rfl

@[simp] theorem advanceHead_planC (r : Planner) (h : SlotIx) :
    (r.advanceHead h).planC = r.planC := rfl

@[simp] theorem advanceHead_head (r : Planner) (h : SlotIx) :
    (r.advanceHead h).head = ringSucc h := rfl

@[simp] theorem advanceHead_nextN (r : Planner) (h : SlotIx) :
    (r.advanceHead h).nextN = r.nextN.set h 0 := rfl

/-! ### The update of GET -/

@[simp] theorem updated_position (cfg : Config) (clip : Bool) (r : Planner) :
    (r.updated cfg clip).position = r.position := rfl

@[simp] theorem updated_velocity (cfg : Config) (clip : Bool) (r : Planner) :
    (r.updated cfg clip).velocity = r.velocity := rfl

@[simp] theorem updated_remainder (cfg : Config) (clip : Bool) (r : Planner) :
    (r.updated cfg clip).remainder = r.remainder := rfl

@[simp] theorem updated_endC (cfg : Config) (clip : Bool) (r : Planner) :
    (r.updated cfg clip).endC = r.endC := rfl

@[simp] theorem updated_head (cfg : Config) (clip : Bool) (r : Planner) :
    (r.updated cfg clip).head = r.head := rfl

@[simp] theorem updated_tail (cfg : Config) (clip : Bool) (r : Planner) :
    (r.updated cfg clip).tail = r.tail := rfl

@[simp] theorem updated_nextN (cfg : Config) (clip : Bool) (r : Planner) :
    (r.updated cfg clip).nextN = r.nextN := rfl

@[simp] theorem updated_nextDc (cfg : Config) (clip : Bool) (r : Planner) :
    (r.updated cfg clip).nextDc = r.nextDc := rfl

@[simp] theorem updated_planC (cfg : Config) (clip : Bool) (r : Planner) :
    (r.updated cfg clip).planC = r.planC := rfl

@[simp] theorem updated_accelPerTick (cfg : Config) (clip : Bool) (r : Planner) :
    (r.updated cfg clip).accelPerTick = accelLookup cfg r.currC := rfl

@[simp] theorem updated_currC (cfg : Config) (clip : Bool) (r : Planner) :
    (r.updated cfg clip).currC =
      velocityUpdate cfg.cMin r.currC r.endC r.accel (accelLookup cfg r.currC) clip := rfl

@[simp] theorem updated_accel (cfg : Config) (clip : Bool) (r : Planner) :
    (r.updated cfg clip).accel = accelFlag (r.updated cfg clip).currC r.endC := rfl

/-! ### The segment load of GET -/

@[simp] theorem loadNext_position (r : Planner) : r.loadNext.position = r.position := by
  unfold Planner.loadNext; split <;> rfl

@[simp] theorem loadNext_velocity (r : Planner) : r.loadNext.velocity = r.velocity := by
  unfold Planner.loadNext; split <;> rfl

@[simp] theorem loadNext_remainder (r : Planner) : r.loadNext.remainder = r.remainder := by
  unfold Planner.loadNext; split <;> rfl

@[simp] theorem loadNext_accelPerTick (r : Planner) : r.loadNext.accelPerTick = r.accelPerTick := by
  unfold Planner.loadNext; split <;> rfl

@[simp] theorem loadNext_currC (r : Planner) : r.loadNext.currC = r.currC := by
  unfold Planner.loadNext; split <;> rfl

@[simp] theorem loadNext_head (r : Planner) : r.loadNext.head = r.head := by
  unfold Planner.loadNext; split <;> rfl

@[simp] theorem loadNext_tail (r : Planner) : r.loadNext.tail = r.tail := by
  unfold Planner.loadNext; split <;> rfl

@[simp] theorem loadNext_nextN (r : Planner) : r.loadNext.nextN = r.nextN := by
  unfold Planner.loadNext; split <;> rfl

@[simp] theorem loadNext_nextDc (r : Planner) : r.loadNext.nextDc = r.nextDc := by
  unfold Planner.loadNext; split <;> rfl

@[simp] theorem loadNext_planC (r : Planner) : r.loadNext.planC = r.planC := by
  unfold Planner.loadNext; split <;> rfl

/-! ### Transactions in flight -/

@[simp] theorem setFlight_planner (s : State) (p : Port) (f : Option Flight) :
    (s.setFlight p f).planner = s.planner := by cases p <;> rfl

@[simp] theorem setFlight_inited (s : State) (p : Port) (f : Option Flight) :
    (s.setFlight p f).inited = s.inited := by cases p <;> rfl

@[simp] theorem setFlight_port (s : State) (p : Port) (f : Option Flight) :
    (s.setFlight p f).port = s.port := by cases p <;> rfl

@[simp] theorem setFlight_rspP (s : State) (p : Port) (f : Option Flight) :
    (s.setFlight p f).rspP = s.rspP := by cases p <;> rfl

@[simp] theorem setFlight_rspC (s : State) (p : Port) (f : Option Flight) :
    (s.setFlight p f).rspC = s.rspC := by cases p <;> rfl

@[simp] theorem setFlight_fill (s : State) (p : Port) (f : Option Flight) :
    (s.setFlight p f).fill = s.fill := by cases p <;> rfl

@[simp] theorem setFlight_fillResult (s : State) (p : Port) (f : Option Flight) :
    (s.setFlight p f).fillResult = s.fillResult := by cases p <;> rfl

@[simp] theorem setFlight_ddas (s : State) (p : Port) (f : Option Flight) :
    (s.setFlight p f).ddas = s.ddas := by cases p <;> rfl

@[simp] theorem setFlight_inputs (s : State) (p : Port) (f : Option Flight) :
    (s.setFlight p f).inputs = s.inputs := by cases p <;> rfl

@[simp] theorem setFlight_P_flightP (s : State) (f : Option Flight) :
    (s.setFlight .P f).flightP = f := rfl

@[simp] theorem setFlight_P_flightC (s : State) (f : Option Flight) :
    (s.setFlight .P f).flightC = s.flightC := rfl

@[simp] theorem setFlight_C_flightP (s : State) (f : Option Flight) :
    (s.setFlight .C f).flightP = s.flightP := rfl

@[simp] theorem setFlight_C_flightC (s : State) (f : Option Flight) :
    (s.setFlight .C f).flightC = f := rfl

@[simp] theorem flight_P (s : State) : s.flight .P = s.flightP := rfl

@[simp] theorem flight_C (s : State) : s.flight .C = s.flightC := rfl

/-! ### Responses -/

@[simp] theorem setRsp_planner (s : State) (p : Port) (r : Option Response) :
    (s.setRsp p r).planner = s.planner := by cases p <;> rfl

@[simp] theorem setRsp_inited (s : State) (p : Port) (r : Option Response) :
    (s.setRsp p r).inited = s.inited := by cases p <;> rfl

@[simp] theorem setRsp_port (s : State) (p : Port) (r : Option Response) :
    (s.setRsp p r).port = s.port := by cases p <;> rfl

@[simp] theorem setRsp_flightP (s : State) (p : Port) (r : Option Response) :
    (s.setRsp p r).flightP = s.flightP := by cases p <;> rfl

@[simp] theorem setRsp_flightC (s : State) (p : Port) (r : Option Response) :
    (s.setRsp p r).flightC = s.flightC := by cases p <;> rfl

@[simp] theorem setRsp_fill (s : State) (p : Port) (r : Option Response) :
    (s.setRsp p r).fill = s.fill := by cases p <;> rfl

@[simp] theorem setRsp_fillResult (s : State) (p : Port) (r : Option Response) :
    (s.setRsp p r).fillResult = s.fillResult := by cases p <;> rfl

@[simp] theorem setRsp_ddas (s : State) (p : Port) (r : Option Response) :
    (s.setRsp p r).ddas = s.ddas := by cases p <;> rfl

@[simp] theorem setRsp_inputs (s : State) (p : Port) (r : Option Response) :
    (s.setRsp p r).inputs = s.inputs := by cases p <;> rfl

@[simp] theorem setRsp_P_rspP (s : State) (r : Option Response) : (s.setRsp .P r).rspP = r := rfl

@[simp] theorem setRsp_P_rspC (s : State) (r : Option Response) :
    (s.setRsp .P r).rspC = s.rspC := rfl

@[simp] theorem setRsp_C_rspP (s : State) (r : Option Response) :
    (s.setRsp .C r).rspP = s.rspP := rfl

@[simp] theorem setRsp_C_rspC (s : State) (r : Option Response) : (s.setRsp .C r).rspC = r := rfl

@[simp] theorem setRsp_rsp_self (s : State) (p : Port) (r : Option Response) :
    (s.setRsp p r).rsp p = r := by cases p <;> rfl

@[simp] theorem answer_rsp_self (s : State) (p : Port) (r : Response) :
    (s.answer p r).rsp p = some r := by cases p <;> rfl

/-! ### Answers -/

@[simp] theorem answer_planner (s : State) (p : Port) (r : Response) :
    (s.answer p r).planner = s.planner := by cases p <;> rfl

@[simp] theorem answer_inited (s : State) (p : Port) (r : Response) :
    (s.answer p r).inited = s.inited := by cases p <;> rfl

@[simp] theorem answer_port (s : State) (p : Port) (r : Response) :
    (s.answer p r).port = s.port := by cases p <;> rfl

@[simp] theorem answer_flightP (s : State) (p : Port) (r : Response) :
    (s.answer p r).flightP = s.flightP := by cases p <;> rfl

@[simp] theorem answer_flightC (s : State) (p : Port) (r : Response) :
    (s.answer p r).flightC = s.flightC := by cases p <;> rfl

@[simp] theorem answer_fill (s : State) (p : Port) (r : Response) :
    (s.answer p r).fill = s.fill := by cases p <;> rfl

@[simp] theorem answer_fillResult (s : State) (p : Port) (r : Response) :
    (s.answer p r).fillResult = s.fillResult := by cases p <;> rfl

@[simp] theorem answer_ddas (s : State) (p : Port) (r : Response) :
    (s.answer p r).ddas = s.ddas := by cases p <;> rfl

@[simp] theorem answer_inputs (s : State) (p : Port) (r : Response) :
    (s.answer p r).inputs = s.inputs := by cases p <;> rfl

/-! ### The end of a command -/

@[simp] theorem complete_port (s : State) (p : Port) (b : Bool) (r : Planner) (rsp : Response) :
    (s.complete p b r rsp).port = s.port := by cases p <;> rfl

@[simp] theorem complete_flightP (s : State) (p : Port) (b : Bool) (r : Planner) (rsp : Response) :
    (s.complete p b r rsp).flightP = s.flightP := by cases p <;> rfl

@[simp] theorem complete_flightC (s : State) (p : Port) (b : Bool) (r : Planner) (rsp : Response) :
    (s.complete p b r rsp).flightC = s.flightC := by cases p <;> rfl

@[simp] theorem complete_fill (s : State) (p : Port) (b : Bool) (r : Planner) (rsp : Response) :
    (s.complete p b r rsp).fill = s.fill := by cases p <;> rfl

@[simp] theorem complete_fillResult (s : State) (p : Port) (b : Bool) (r : Planner) (rsp : Response) :
    (s.complete p b r rsp).fillResult = s.fillResult := by cases p <;> rfl

@[simp] theorem complete_ddas (s : State) (p : Port) (b : Bool) (r : Planner) (rsp : Response) :
    (s.complete p b r rsp).ddas = s.ddas := by cases p <;> rfl

@[simp] theorem complete_inputs (s : State) (p : Port) (b : Bool) (r : Planner) (rsp : Response) :
    (s.complete p b r rsp).inputs = s.inputs := by cases p <;> rfl

@[simp] theorem complete_planner (s : State) (p : Port) (b : Bool) (r : Planner) (rsp : Response) :
    (s.complete p b r rsp).planner = r := by cases p <;> rfl

@[simp] theorem complete_inited (s : State) (p : Port) (b : Bool) (r : Planner) (rsp : Response) :
    (s.complete p b r rsp).inited = (s.inited || b) := by cases p <;> rfl

@[simp] theorem complete_rsp_self (s : State) (p : Port) (b : Bool) (r : Planner) (rsp : Response) :
    (s.complete p b r rsp).rsp p = some rsp := by cases p <;> rfl

/-! ### A word taken from the inputs -/

@[simp] theorem taking_planner (s : State) (p : Port) (rest : List Event) :
    (s.taking p rest).planner = s.planner := rfl

@[simp] theorem taking_port (s : State) (p : Port) (rest : List Event) :
    (s.taking p rest).port = p := rfl

@[simp] theorem taking_inputs (s : State) (p : Port) (rest : List Event) :
    (s.taking p rest).inputs = rest := rfl

/-! ### A transaction begun -/

@[simp] theorem launch_planner (s : State) (p : Port) (w : CmdWord) (m : Micro) :
    (s.launch p w m).planner = s.planner := by cases p <;> rfl

@[simp] theorem launch_inited (s : State) (p : Port) (w : CmdWord) (m : Micro) :
    (s.launch p w m).inited = s.inited := by cases p <;> rfl

@[simp] theorem launch_port (s : State) (p : Port) (w : CmdWord) (m : Micro) :
    (s.launch p w m).port = s.port := by cases p <;> rfl

@[simp] theorem launch_fill (s : State) (p : Port) (w : CmdWord) (m : Micro) :
    (s.launch p w m).fill = s.fill := by cases p <;> rfl

@[simp] theorem launch_fillResult (s : State) (p : Port) (w : CmdWord) (m : Micro) :
    (s.launch p w m).fillResult = s.fillResult := by cases p <;> rfl

@[simp] theorem launch_ddas (s : State) (p : Port) (w : CmdWord) (m : Micro) :
    (s.launch p w m).ddas = s.ddas := by cases p <;> rfl

@[simp] theorem launch_inputs (s : State) (p : Port) (w : CmdWord) (m : Micro) :
    (s.launch p w m).inputs = s.inputs := by cases p <;> rfl

@[simp] theorem launch_flight_self (s : State) (p : Port) (w : CmdWord) (m : Micro) :
    (s.launch p w m).flight p = some ⟨w, m⟩ := by cases p <;> rfl

@[simp] theorem launch_rsp_self (s : State) (p : Port) (w : CmdWord) (m : Micro) :
    (s.launch p w m).rsp p = none := by cases p <;> rfl

@[simp] theorem launch_P_flightC (s : State) (w : CmdWord) (m : Micro) :
    (s.launch .P w m).flightC = s.flightC := rfl

@[simp] theorem launch_P_rspC (s : State) (w : CmdWord) (m : Micro) :
    (s.launch .P w m).rspC = s.rspC := rfl

@[simp] theorem launch_C_flightP (s : State) (w : CmdWord) (m : Micro) :
    (s.launch .C w m).flightP = s.flightP := rfl

@[simp] theorem launch_C_rspP (s : State) (w : CmdWord) (m : Micro) :
    (s.launch .C w m).rspP = s.rspP := rfl

/-! ### FILL returns -/

@[simp] theorem fillReturn_planner (s : State) (l : FillLoop) :
    (s.fillReturn l).planner = s.planner := rfl

@[simp] theorem fillReturn_inited (s : State) (l : FillLoop) :
    (s.fillReturn l).inited = s.inited := rfl

@[simp] theorem fillReturn_port (s : State) (l : FillLoop) :
    (s.fillReturn l).port = s.port := rfl

@[simp] theorem fillReturn_flightP (s : State) (l : FillLoop) :
    (s.fillReturn l).flightP = s.flightP := rfl

@[simp] theorem fillReturn_flightC (s : State) (l : FillLoop) :
    (s.fillReturn l).flightC = s.flightC := rfl

@[simp] theorem fillReturn_rspP (s : State) (l : FillLoop) :
    (s.fillReturn l).rspP = s.rspP := rfl

@[simp] theorem fillReturn_rspC (s : State) (l : FillLoop) :
    (s.fillReturn l).rspC = s.rspC := rfl

@[simp] theorem fillReturn_ddas (s : State) (l : FillLoop) :
    (s.fillReturn l).ddas = s.ddas := rfl

@[simp] theorem fillReturn_inputs (s : State) (l : FillLoop) :
    (s.fillReturn l).inputs = s.inputs := rfl

@[simp] theorem fillReturn_fill (s : State) (l : FillLoop) : (s.fillReturn l).fill = none := rfl

@[simp] theorem fillReturn_fillResult (s : State) (l : FillLoop) :
    (s.fillReturn l).fillResult = some l.done := rfl

/-! ### FILL issues a PUT -/

@[simp] theorem fillIssue_planner (s : State) (l : FillLoop) (n v : Word) :
    (s.fillIssue l n v).planner = s.planner := rfl

@[simp] theorem fillIssue_inited (s : State) (l : FillLoop) (n v : Word) :
    (s.fillIssue l n v).inited = s.inited := rfl

@[simp] theorem fillIssue_port (s : State) (l : FillLoop) (n v : Word) :
    (s.fillIssue l n v).port = s.port := rfl

@[simp] theorem fillIssue_flightC (s : State) (l : FillLoop) (n v : Word) :
    (s.fillIssue l n v).flightC = s.flightC := rfl

@[simp] theorem fillIssue_rspC (s : State) (l : FillLoop) (n v : Word) :
    (s.fillIssue l n v).rspC = s.rspC := rfl

@[simp] theorem fillIssue_fillResult (s : State) (l : FillLoop) (n v : Word) :
    (s.fillIssue l n v).fillResult = s.fillResult := rfl

@[simp] theorem fillIssue_ddas (s : State) (l : FillLoop) (n v : Word) :
    (s.fillIssue l n v).ddas = s.ddas := rfl

@[simp] theorem fillIssue_inputs (s : State) (l : FillLoop) (n v : Word) :
    (s.fillIssue l n v).inputs = s.inputs := rfl

@[simp] theorem fillIssue_fill (s : State) (l : FillLoop) (n v : Word) :
    (s.fillIssue l n v).fill = some { l with asked := some n } := rfl

@[simp] theorem fillIssue_flightP (s : State) (l : FillLoop) (n v : Word) :
    (s.fillIssue l n v).flightP = some ⟨encode (.put n v), .p0 n v⟩ := rfl

@[simp] theorem fillIssue_rspP (s : State) (l : FillLoop) (n v : Word) :
    (s.fillIssue l n v).rspP = none := rfl

/-! ### FILL credits an accepted PUT -/

@[simp] theorem fillCredit_planner (s : State) (l : FillLoop) (d : Descriptor) (steps : Word) :
    (s.fillCredit l d steps).planner = s.planner := rfl

@[simp] theorem fillCredit_inited (s : State) (l : FillLoop) (d : Descriptor) (steps : Word) :
    (s.fillCredit l d steps).inited = s.inited := rfl

@[simp] theorem fillCredit_port (s : State) (l : FillLoop) (d : Descriptor) (steps : Word) :
    (s.fillCredit l d steps).port = s.port := rfl

@[simp] theorem fillCredit_flightP (s : State) (l : FillLoop) (d : Descriptor) (steps : Word) :
    (s.fillCredit l d steps).flightP = s.flightP := rfl

@[simp] theorem fillCredit_flightC (s : State) (l : FillLoop) (d : Descriptor) (steps : Word) :
    (s.fillCredit l d steps).flightC = s.flightC := rfl

@[simp] theorem fillCredit_rspP (s : State) (l : FillLoop) (d : Descriptor) (steps : Word) :
    (s.fillCredit l d steps).rspP = s.rspP := rfl

@[simp] theorem fillCredit_rspC (s : State) (l : FillLoop) (d : Descriptor) (steps : Word) :
    (s.fillCredit l d steps).rspC = s.rspC := rfl

@[simp] theorem fillCredit_fillResult (s : State) (l : FillLoop) (d : Descriptor) (steps : Word) :
    (s.fillCredit l d steps).fillResult = s.fillResult := rfl

@[simp] theorem fillCredit_inputs (s : State) (l : FillLoop) (d : Descriptor) (steps : Word) :
    (s.fillCredit l d steps).inputs = s.inputs := rfl

@[simp] theorem fillCredit_fill (s : State) (l : FillLoop) (d : Descriptor) (steps : Word) :
    (s.fillCredit l d steps).fill =
      some { l with done := l.done + steps, asked := none } := rfl

@[simp] theorem fillCredit_ddas (s : State) (l : FillLoop) (d : Descriptor) (steps : Word) :
    (s.fillCredit l d steps).ddas = s.ddas.set l.ref (creditDescriptor d steps) := rfl

/-! ### The owner creates a descriptor -/

@[simp] theorem createDescriptor_planner (s : State) (n v : Word) :
    (s.createDescriptor n v).planner = s.planner := rfl

@[simp] theorem createDescriptor_inited (s : State) (n v : Word) :
    (s.createDescriptor n v).inited = s.inited := rfl

@[simp] theorem createDescriptor_port (s : State) (n v : Word) :
    (s.createDescriptor n v).port = s.port := rfl

@[simp] theorem createDescriptor_flightP (s : State) (n v : Word) :
    (s.createDescriptor n v).flightP = s.flightP := rfl

@[simp] theorem createDescriptor_flightC (s : State) (n v : Word) :
    (s.createDescriptor n v).flightC = s.flightC := rfl

@[simp] theorem createDescriptor_rspP (s : State) (n v : Word) :
    (s.createDescriptor n v).rspP = s.rspP := rfl

@[simp] theorem createDescriptor_rspC (s : State) (n v : Word) :
    (s.createDescriptor n v).rspC = s.rspC := rfl

@[simp] theorem createDescriptor_fill (s : State) (n v : Word) :
    (s.createDescriptor n v).fill = s.fill := rfl

@[simp] theorem createDescriptor_fillResult (s : State) (n v : Word) :
    (s.createDescriptor n v).fillResult = s.fillResult := rfl

@[simp] theorem createDescriptor_inputs (s : State) (n v : Word) :
    (s.createDescriptor n v).inputs = s.inputs := rfl

@[simp] theorem createDescriptor_ddas (s : State) (n v : Word) :
    (s.createDescriptor n v).ddas = s.ddas ++ [⟨n, v, 0⟩] := rfl

/-! ### The owner changes a descriptor -/

@[simp] theorem amendDescriptor_planner (s : State) (ref : Nat) (n v : Word) :
    (s.amendDescriptor ref n v).planner = s.planner := rfl

@[simp] theorem amendDescriptor_inited (s : State) (ref : Nat) (n v : Word) :
    (s.amendDescriptor ref n v).inited = s.inited := rfl

@[simp] theorem amendDescriptor_port (s : State) (ref : Nat) (n v : Word) :
    (s.amendDescriptor ref n v).port = s.port := rfl

@[simp] theorem amendDescriptor_flightP (s : State) (ref : Nat) (n v : Word) :
    (s.amendDescriptor ref n v).flightP = s.flightP := rfl

@[simp] theorem amendDescriptor_flightC (s : State) (ref : Nat) (n v : Word) :
    (s.amendDescriptor ref n v).flightC = s.flightC := rfl

@[simp] theorem amendDescriptor_rspP (s : State) (ref : Nat) (n v : Word) :
    (s.amendDescriptor ref n v).rspP = s.rspP := rfl

@[simp] theorem amendDescriptor_rspC (s : State) (ref : Nat) (n v : Word) :
    (s.amendDescriptor ref n v).rspC = s.rspC := rfl

@[simp] theorem amendDescriptor_fill (s : State) (ref : Nat) (n v : Word) :
    (s.amendDescriptor ref n v).fill = s.fill := rfl

@[simp] theorem amendDescriptor_fillResult (s : State) (ref : Nat) (n v : Word) :
    (s.amendDescriptor ref n v).fillResult = s.fillResult := rfl

@[simp] theorem amendDescriptor_inputs (s : State) (ref : Nat) (n v : Word) :
    (s.amendDescriptor ref n v).inputs = s.inputs := rfl

@[simp] theorem amendDescriptor_ddas (s : State) (ref : Nat) (n v : Word) :
    (s.amendDescriptor ref n v).ddas = s.ddas.modify ref fun d => ⟨n, v, d.queuedSteps⟩ := rfl

end Sys2Proof.Machine
end

