-- ==== Sys2Proof/Laws/Ops.lean ====
section
/-! SUPPORT. For each shared operation, once, everything it can do; the provers cite these instead of
unfolding it. -/

namespace Sys2Proof.Machine

/-! ### Slots -/

theorem slot_set_self (v : Vector Word 4) (i : SlotIx) (x : Word) :
    (v.set i x)[i] = x := by simp

theorem slot_set_ne (v : Vector Word 4) (i j : SlotIx) (x : Word) (h : i ≠ j) :
    (v.set i x)[j] = v[j] := by
  have : i.val ≠ j.val := fun e => h (Fin.ext e)
  simp [this]

/-- Writing a slot and reading one. -/
theorem slot_set (v : Vector Word 4) (i j : SlotIx) (x : Word) :
    (v.set i x)[j] = if i = j then x else v[j] := by
  split
  · rename_i h; subst h; exact slot_set_self v i x
  · exact slot_set_ne v i j x ‹_›

theorem ringSucc_ne (i : SlotIx) : ringSucc i ≠ i := by
  revert i; decide

/-- Stepping round the ring from `i`, no slot but the first is `i`. -/
theorem ring_add_eq_self (i k : SlotIx) : i + k = i ↔ k = 0 := by
  revert i k; decide

@[simp] theorem isFree_eq_true (n : Word) : isFree n = true ↔ n = 0 := by simp [isFree]

@[simp] theorem isFree_eq_false (n : Word) : isFree n = false ↔ n ≠ 0 := by simp [isFree]

@[simp] theorem isEmpty_eq_true (r : Planner) : r.isEmpty = true ↔ r.nextN[r.head] = 0 := by
  simp only [Planner.isEmpty, isFree_eq_true, slotRead_n]

@[simp] theorem isEmpty_eq_false (r : Planner) : r.isEmpty = false ↔ r.nextN[r.head] ≠ 0 := by
  simp only [Planner.isEmpty, isFree_eq_false, slotRead_n]

@[simp] theorem isFull_eq_true (r : Planner) : r.isFull = true ↔ r.nextN[r.tail] ≠ 0 := by
  simp only [Planner.isFull, Bool.not_eq_true', isFree_eq_false, slotRead_n]

@[simp] theorem isFull_eq_false (r : Planner) : r.isFull = false ↔ r.nextN[r.tail] = 0 := by
  simp only [Planner.isFull, Bool.not_eq_false', isFree_eq_true, slotRead_n]

/-! ### The commands on the registers, case by case -/

theorem put_of_zero (speed : Word) (r : Planner) : r.put 0 speed = (r, failWith .err) := rfl

theorem put_of_full (steps speed : Word) (r : Planner) (hs : steps ≠ 0)
    (hf : r.nextN[r.tail] ≠ 0) : r.put steps speed = (r, failWith .full) := by
  unfold Planner.put
  rw [if_neg hs, if_pos ((isFull_eq_true r).2 hf)]

theorem put_of_free (steps speed : Word) (r : Planner) (hs : steps ≠ 0)
    (hf : r.nextN[r.tail] = 0) :
    r.put steps speed =
      ({ r.insert r.tail steps (subMod speed r.planC) with planC := speed }, okWith 0) := by
  unfold Planner.put
  rw [if_neg hs, if_neg (by rw [(isFull_eq_false r).2 hf]; decide)]

theorem begin_of_empty (target : Word) (r : Planner) (h : r.nextN[r.head] = 0) :
    r.beginDda target = (r, failWith .empty) := by
  unfold Planner.beginDda
  rw [if_pos ((isEmpty_eq_true r).2 h)]

theorem begin_of_live (target : Word) (r : Planner) (h : r.nextN[r.head] ≠ 0) :
    r.beginDda target =
      ({ r with endC := target, accel := accelFlag r.currC target }, okWith 0) := by
  unfold Planner.beginDda
  rw [if_neg (by rw [(isEmpty_eq_false r).2 h]; decide)]

theorem get_of_empty (cfg : Config) (clip : Bool) (r : Planner) (h : r.nextN[r.head] = 0) :
    r.get cfg clip = (r, failWith .empty) := by
  unfold Planner.get
  rw [if_pos ((isEmpty_eq_true r).2 h)]

/-- The answer of a GET that finds the queue not empty is the updated `curr_c`
(41_velocity_engine.md R108). -/
theorem get_of_live (cfg : Config) (clip : Bool) (r : Planner) (h : r.nextN[r.head] ≠ 0) :
    r.get cfg clip =
      ((r.updated cfg clip).consumeStep r.nextN[r.head],
        okWith ((r.updated cfg clip).consumeStep r.nextN[r.head]).currC) := by
  unfold Planner.get
  rw [if_neg (by rw [(isEmpty_eq_false r).2 h]; decide)]
  rfl

theorem consumeStep_of_more (r : Planner) (n : Word) (h : n ≠ 1) :
    r.consumeStep n = r.slotWrite .n r.head (n - 1) := by
  unfold Planner.consumeStep
  rw [if_neg (by bv_omega)]

theorem consumeStep_of_last (r : Planner) : r.consumeStep 1 = (r.advanceHead r.head).loadNext := rfl

@[simp] theorem consumeStep_currC (r : Planner) (n : Word) : (r.consumeStep n).currC = r.currC := by
  unfold Planner.consumeStep; split <;> simp

theorem loadNext_of_free (r : Planner) (h : r.nextN[r.head] = 0) : r.loadNext = r := by
  unfold Planner.loadNext
  rw [if_pos ((isEmpty_eq_true r).2 h)]

theorem loadNext_of_live (r : Planner) (h : r.nextN[r.head] ≠ 0) :
    r.loadNext = { r with
      endC := addMod r.endC r.nextDc[r.head]
      accel := accelFlag r.currC (addMod r.endC r.nextDc[r.head]) } := by
  unfold Planner.loadNext
  rw [if_neg (by rw [(isEmpty_eq_false r).2 h]; decide)]
  rfl

/-! ### Transactions -/

theorem perform_of_refuse (s : State) (i : Instr) (b) (r : Refusal)
    (h : s.admission s.port i = .refuse r) : s.perform i b = .refused r := by
  unfold State.perform; rw [h]

theorem perform_of_reject (s : State) (i : Instr) (b) (h : s.admission s.port i = .reject) :
    s.perform i b = .next (s.answer s.port (failWith .err)) := by
  unfold State.perform; rw [h]

theorem perform_of_accept (s : State) (i : Instr) (b) (h : s.admission s.port i = .accept) :
    s.perform i b =
      .next (s.complete s.port (isInit i) (b s.planner).1 (b s.planner).2) := by
  unfold State.perform; rw [h]

/-- If a transaction answers a next state, its word was rejected with `ERR` and no register written, or
its command was performed. -/
theorem perform_next (s t : State) (i : Instr) (b) (h : s.perform i b = .next t) :
    (s.admission s.port i = .reject ∧ t = s.answer s.port (failWith .err)) ∨
    (s.admission s.port i = .accept ∧
      t = s.complete s.port (isInit i) (b s.planner).1 (b s.planner).2) := by
  unfold State.perform at h
  split at h
  · exact absurd h (by simp)
  · exact .inl ⟨‹_›, by simpa using h.symm⟩
  · exact .inr ⟨‹_›, by simpa using h.symm⟩

theorem perform_ne_fault (s : State) (i : Instr) (b) (f : Fault) : s.perform i b ≠ .fault f := by
  unfold State.perform; split <;> simp

theorem performReserved_next (s t : State) (h : s.performReserved = .next t) :
    s.busy s.port = false ∧ t = s.answer s.port (failWith .err) := by
  unfold State.performReserved at h
  split at h
  · exact absurd h (by simp)
  · rename_i hb; exact ⟨by simpa using hb, by simpa using h.symm⟩

theorem performReserved_ne_fault (s : State) (f : Fault) : s.performReserved ≠ .fault f := by
  unfold State.performReserved; split <;> simp

/-- When a command is accepted: its port is free and accepts it, and the contract of INIT holds. -/
theorem admission_accept (s : State) (p : Port) (i : Instr) (h : s.admission p i = .accept) :
    s.busy p = false ∧ acceptedOn i p = true ∧
    (isInit i = true → s.flightC = none) ∧
    (isInit i = false → s.inited = true ∧ s.initInFlight = false) := by
  unfold State.admission at h
  cases hb : s.busy p <;> cases ha : acceptedOn i p <;> cases hi : isInit i <;>
    cases hn : s.inited <;> cases hf : s.initInFlight <;> cases hc : s.flightC <;>
    simp_all

/-- When a word is rejected: its port is free and does not accept it. -/
theorem admission_reject (s : State) (p : Port) (i : Instr) (h : s.admission p i = .reject) :
    s.busy p = false ∧ acceptedOn i p = false := by
  unfold State.admission at h
  cases hb : s.busy p <;> cases ha : acceptedOn i p <;> cases hi : isInit i <;>
    cases hn : s.inited <;> cases hf : s.initInFlight <;> cases hc : s.flightC <;>
    simp_all

/-- A command other than INIT is accepted on a port that is free and accepts it, once INIT has been done
and while none is in flight. -/
theorem admission_of_ready (s : State) (p : Port) (i : Instr) (hb : s.busy p = false)
    (ha : acceptedOn i p = true) (hi : isInit i = false) (hn : s.inited = true)
    (hf : s.initInFlight = false) : s.admission p i = .accept := by
  simp [State.admission, hb, ha, hi, hn, hf]

end Sys2Proof.Machine
end

