-- ==== Sys2Proof/Laws/Micro.lean ====
section
/-! SUPPORT. What micro-steps can do: the small facts about `microStep`, `runMicro` and `advance` that
claims about interleavings rest on. -/

namespace Sys2Proof.Machine

/-- A micro-step that goes on stays within its command. -/
theorem microStep_go_command (cfg : Config) (m m' : Micro) (r : Planner)
    (h : (microStep cfg m r).2 = .go m') : m'.command = m.command := by
  cases m <;> simp only [microStep] at h <;> (try split at h) <;>
    first
      | (injection h with h; subst h; rfl)
      | exact absurd h (by simp)

/-- The first micro-step of a command is INIT's exactly when the command is INIT. -/
theorem first_isInit (i : Instr) (m : Micro) (h : Micro.first i = some m) :
    m.isInit = isInit i := by
  cases i <;> simp only [Micro.first, Option.some.injEq, reduceCtorEq] at h <;> subst h <;> rfl

theorem runMicro_go (cfg : Config) (k : Nat) (m m' : Micro) (r r' : Planner)
    (h : microStep cfg m r = (r', .go m')) :
    runMicro cfg (k + 1) m r = runMicro cfg k m' r' := by rw [runMicro, h]

theorem runMicro_done (cfg : Config) (k : Nat) (m : Micro) (r r' : Planner) (rsp : Response)
    (h : microStep cfg m r = (r', .done rsp)) :
    runMicro cfg (k + 1) m r = (r', some rsp) := by rw [runMicro, h]

/-! ### The micro-steps that test -/

theorem microStep_p0 (cfg : Config) (steps speed : Word) (r : Planner) (h : steps ≠ 0) :
    microStep cfg (.p0 steps speed) r = (r, .go (.p1 steps speed)) := by
  simp only [microStep, if_neg h]

theorem microStep_p2_free (cfg : Config) (steps speed : Word) (t : SlotIx) (r : Planner)
    (h : r.nextN[t] = 0) :
    microStep cfg (.p2 steps speed t) r = (r, .go (.p3 steps speed t)) := by
  simp only [microStep, slotRead_n, (isFree_eq_true _).2 h, if_true]

theorem microStep_p2_live (cfg : Config) (steps speed : Word) (t : SlotIx) (r : Planner)
    (h : r.nextN[t] ≠ 0) :
    microStep cfg (.p2 steps speed t) r = (r, .done (failWith .full)) := by
  simp only [microStep, slotRead_n, (isFree_eq_false _).2 h, if_false, Bool.false_eq_true]

theorem microStep_b2_free (cfg : Config) (target : Word) (h : SlotIx) (r : Planner)
    (hn : r.nextN[h] = 0) :
    microStep cfg (.b2 target h) r = (r, .done (failWith .empty)) := by
  simp only [microStep, slotRead_n, (isFree_eq_true _).2 hn, if_true]

theorem microStep_b2_live (cfg : Config) (target : Word) (h : SlotIx) (r : Planner)
    (hn : r.nextN[h] ≠ 0) :
    microStep cfg (.b2 target h) r = (r, .go (.b3 target h r.nextN[h])) := by
  simp only [microStep, slotRead_n, (isFree_eq_false _).2 hn, if_false, Bool.false_eq_true]

theorem microStep_g2_free (cfg : Config) (clip : Bool) (h : SlotIx) (r : Planner)
    (hn : r.nextN[h] = 0) :
    microStep cfg (.g2 clip h) r = (r, .done (failWith .empty)) := by
  simp only [microStep, slotRead_n, (isFree_eq_true _).2 hn, if_true]

theorem microStep_g2_live (cfg : Config) (clip : Bool) (h : SlotIx) (r : Planner)
    (hn : r.nextN[h] ≠ 0) :
    microStep cfg (.g2 clip h) r = (r, .go (.g3 clip h r.nextN[h])) := by
  simp only [microStep, slotRead_n, (isFree_eq_false _).2 hn, if_false, Bool.false_eq_true]

theorem microStep_g7_more (cfg : Config) (l : GetLocals) (r : Planner) (hn : l.n ≠ 1) :
    microStep cfg (.g7 l) r = (r.slotWrite .n l.h (l.n - 1), .go (.g14 l .kept)) := by
  simp only [microStep, if_neg (show ¬ l.n - 1 = 0 by bv_omega)]

theorem microStep_g7_last (cfg : Config) (l : GetLocals) (r : Planner) (hn : l.n = 1) :
    microStep cfg (.g7 l) r = (r, .go (.g8 l)) := by
  simp only [microStep, if_pos (show l.n - 1 = 0 by bv_omega)]

theorem microStep_g10_free (cfg : Config) (l : GetLocals) (h' : SlotIx) (r : Planner)
    (hn : r.nextN[h'] = 0) :
    microStep cfg (.g10 l h') r = (r, .go (.g14 l (.retired h' r.nextN[h']))) := by
  simp only [microStep, slotRead_n, (isFree_eq_true _).2 hn, if_true]

theorem microStep_g10_live (cfg : Config) (l : GetLocals) (h' : SlotIx) (r : Planner)
    (hn : r.nextN[h'] ≠ 0) :
    microStep cfg (.g10 l h') r = (r, .go (.g11 l h' r.nextN[h'])) := by
  simp only [microStep, slotRead_n, (isFree_eq_false _).2 hn, if_false, Bool.false_eq_true]

/-! ### Steps of an agent -/

/-- The entry FILL takes has at least one step, where steps are left (42_filler.md R129). -/
theorem fillEntry_steps_ne_zero (cfg : Config) (d : Descriptor) (h : d.queuedSteps < d.totalSteps) :
    (fillEntry cfg d).1 ≠ 0 := by
  have hu : unqueued d ≠ 0 := by unfold unqueued; bv_omega
  simp only [fillEntry]
  split
  · decide
  · split
    · exact hu
    · assumption

/-- A FILL call's next action, on a descriptor there is: a PUT issued where steps are left (L1 to L3), the
call returned where none are (L7), the answer `OK` credited (L4 to L6), the call returned at any other. -/
theorem stepFill_next (s t : State) (l : FillLoop) (h : s.stepFill l = .next t) :
    ∃ d, s.descriptor l.ref = some d ∧
    ((l.asked = none ∧ d.queuedSteps < d.totalSteps ∧ s.inited = true ∧
      t = s.fillIssue l (fillEntry Config.platform d).1 (fillEntry Config.platform d).2) ∨
    (l.asked = none ∧ ¬ d.queuedSteps < d.totalSteps ∧ t = s.fillReturn l) ∨
    (∃ steps, l.asked = some steps ∧ s.rspP.any (·.status == .ok) = true ∧
      t = s.fillCredit l d steps) ∨
    (∃ steps, l.asked = some steps ∧ s.rspP.any (·.status == .ok) = false ∧
      t = s.fillReturn l)) := by
  unfold State.stepFill at h
  split at h
  · exact absurd h (by simp)
  rename_i d hd
  refine ⟨d, hd, ?_⟩
  split at h
  · rename_i ha
    split at h
    · rename_i hq
      split at h
      · rename_i hin; exact .inl ⟨ha, hq, hin, by simpa using h.symm⟩
      · exact absurd h (by simp)
    · rename_i hq; exact .inr (.inl ⟨ha, hq, by simpa using h.symm⟩)
  · rename_i steps ha
    split at h
    · rename_i hr; exact .inr (.inr (.inl ⟨steps, ha, hr, by simpa using h.symm⟩))
    · rename_i hr
      exact .inr (.inr (.inr ⟨steps, ha, by simpa using hr, by simpa using h.symm⟩))

/-- What an agent's next action can be: a micro-step of its transaction, an action of FILL, nothing. -/
theorem advance_next (p : Port) (s t : State) (h : advance p s = .next t) :
    (∃ f, s.flight p = some f ∧ t = s.stepFlight p f) ∨
    (p = .P ∧ s.flightP = none ∧ ∃ l, s.fill = some l ∧ s.stepFill l = .next t) ∨
    (s.flight p = none ∧ t = s) := by
  unfold advance at h
  split at h
  · rename_i f hf; exact .inl ⟨f, hf, by simpa using h.symm⟩
  · rename_i hf
    cases p with
    | P =>
      unfold State.resume at h
      cases hl : s.fill with
      | some l => simp only [hl] at h; exact .inr (.inl ⟨rfl, hf, l, rfl, h⟩)
      | none => simp only [hl] at h; exact .inr (.inr ⟨hf, by simpa using h.symm⟩)
    | C => exact .inr (.inr ⟨hf, by simpa [State.resume] using h.symm⟩)

/-- What presenting a word to be run micro-step by micro-step can do: `ERR`, or a transaction begun. -/
theorem startCommand_next (p : Port) (w : CmdWord) (s t : State)
    (h : startCommand p w s = .next t) :
    (s.busy p = false ∧ t = s.answer p (failWith .err) ∧
      (Micro.first (decode w) = none ∨ acceptedOn (decode w) p = false)) ∨
    ∃ m, Micro.first (decode w) = some m ∧ s.admission p (decode w) = .accept ∧
      t = s.launch p w m := by
  unfold startCommand at h
  split at h
  · rename_i hm
    split at h
    · exact absurd h (by simp)
    · rename_i hb; exact .inl ⟨by simpa using hb, by simpa using h.symm, .inl hm⟩
  · rename_i m hm
    split at h
    · exact absurd h (by simp)
    · rename_i ha
      obtain ⟨h1, h2⟩ := admission_reject _ _ _ ha
      exact .inl ⟨h1, by simpa using h.symm, .inr h2⟩
    · rename_i ha; exact .inr ⟨m, hm, ha, by simpa using h.symm⟩

/-- What calling FILL can do: the loop begins, and nothing else changes. -/
theorem startFill_next (ref : Nat) (s t : State) (h : startFill ref s = .next t) :
    s.busy .P = false ∧ s.inited = true ∧ (∃ d, s.descriptor ref = some d) ∧
      t = { s with fill := some ⟨ref, 0, none⟩, fillResult := none } := by
  unfold startFill at h
  split at h
  · exact absurd h (by simp)
  · rename_i hb
    split at h
    · exact absurd h (by simp)
    · rename_i hn
      split at h
      · exact absurd h (by simp)
      · rename_i hd
        exact ⟨by simpa using hb, by simpa using hn,
          Option.ne_none_iff_exists'.mp (by simpa using hd), by simpa using h.symm⟩

/-- What a step can do: a word presented whole or begun, an agent's next action, a FILL call begun, or an
owner's write of its descriptors. -/
theorem step_next (s t : State) (h : step s = .next t) :
    (∃ p w rest, s.inputs = .present p w :: rest ∧ exec (decode w) (s.taking p rest) = .next t) ∨
    (∃ p w rest, s.inputs = .start p w :: rest ∧
      startCommand p w { s with inputs := rest } = .next t) ∨
    (∃ p rest, (s.inputs = .micro p :: rest ∨ s.inputs = [] ∧ rest = []) ∧
      advance p { s with inputs := rest } = .next t) ∨
    (∃ ref rest, s.inputs = .fill ref :: rest ∧ startFill ref { s with inputs := rest } = .next t) ∨
    (∃ n v rest, s.inputs = .create n v :: rest ∧
      t = { s with inputs := rest }.createDescriptor n v) ∨
    ∃ ref n v rest, s.inputs = .amend ref n v :: rest ∧
      t = { s with inputs := rest }.amendDescriptor ref n v := by
  unfold step at h
  split at h
  · rename_i hi
    have hs : { s with inputs := [] } = s := by rw [← hi]
    unfold goOn at h
    split at h <;> exact .inr (.inr (.inl ⟨_, [], .inr ⟨hi, rfl⟩, hs ▸ h⟩))
  · rename_i p w rest hi; exact .inl ⟨p, w, rest, hi, h⟩
  · rename_i p w rest hi; exact .inr (.inl ⟨p, w, rest, hi, h⟩)
  · rename_i p rest hi; exact .inr (.inr (.inl ⟨p, rest, .inl hi, h⟩))
  · rename_i ref rest hi; exact .inr (.inr (.inr (.inl ⟨ref, rest, hi, h⟩)))
  · rename_i n v rest hi
    exact .inr (.inr (.inr (.inr (.inl ⟨n, v, rest, hi, by simpa using h.symm⟩))))
  · rename_i ref n v rest hi
    exact .inr (.inr (.inr (.inr (.inr ⟨ref, n, v, rest, hi, by simpa using h.symm⟩))))

end Sys2Proof.Machine
end

