-- ==== Sys2Proof/Laws/PerInstr.lean ====
section
/-! SUPPORT. Facts about each command as syntax, one lemma per constructor of Instr. -/

namespace Sys2Proof.Laws

/-! ### The fields of a word put together from its fields (spec/30_encoding.md R71) -/

@[simp] theorem opField_wordOf (op : BitVec 4) (a b : Word) : opField (wordOf op a b) = op := by
  apply BitVec.eq_of_getLsbD_eq
  intro i hi
  simp only [opField, wordOf, BitVec.getLsbD_extractLsb', BitVec.getLsbD_append]
  rw [if_neg (by omega), if_neg (by omega)]
  simp only [hi, decide_true, Bool.true_and]
  congr 1; omega

@[simp] theorem aField_wordOf (op : BitVec 4) (a b : Word) : aField (wordOf op a b) = a := by
  apply BitVec.eq_of_getLsbD_eq
  intro i hi
  simp only [aField, wordOf, BitVec.getLsbD_extractLsb', BitVec.getLsbD_append]
  rw [if_neg (by omega), if_pos (by omega)]
  simp only [hi, decide_true, Bool.true_and]
  congr 1; omega

@[simp] theorem bField_wordOf (op : BitVec 4) (a b : Word) : bField (wordOf op a b) = b := by
  apply BitVec.eq_of_getLsbD_eq
  intro i hi
  simp only [bField, wordOf, BitVec.getLsbD_extractLsb', BitVec.getLsbD_append]
  rw [if_pos (by omega)]
  simp [hi]

/-! ### The operation code of each command's word -/

/-- The word software writes for a command carries the command's operation code in bits [67:64]
(spec/30_encoding.md R71, R74). -/
def OpcodeField.Statement (i : Instr) : Prop := opField (encode i) = opOf i

theorem OpcodeField.init : OpcodeField.Statement .init := opField_wordOf _ _ _

theorem OpcodeField.put (steps speed : Word) : OpcodeField.Statement (.put steps speed) :=
  opField_wordOf _ _ _

theorem OpcodeField.full : OpcodeField.Statement .full := opField_wordOf _ _ _

theorem OpcodeField.empty : OpcodeField.Statement .empty := opField_wordOf _ _ _

theorem OpcodeField.get (clip : Bool) : OpcodeField.Statement (.get clip) := opField_wordOf _ _ _

theorem OpcodeField.beginDda (targetC : Word) : OpcodeField.Statement (.beginDda targetC) :=
  opField_wordOf _ _ _

theorem OpcodeField.reserved0 : OpcodeField.Statement .reserved0 := opField_wordOf _ _ _

theorem OpcodeField.reserved7 : OpcodeField.Statement .reserved7 := opField_wordOf _ _ _

theorem OpcodeField.reserved8toF (op : BitVec 4) : OpcodeField.Statement (.reserved8toF op) :=
  opField_wordOf _ _ _

end Sys2Proof.Laws
end

