-- ==== Sys2Proof/Tests/Slice0.lean ====
section
/-! SUPPORT. Tests. The words and the expected results are spec/95_test_vectors.md's (vector V<n>, scenario
S<n>, program P<n>), or written out by hand from the encoding of spec/30_encoding.md R71. The last part
shows, for each obligation with hypotheses, a state and operands that meet them together. -/

namespace Sys2Proof.Tests

open Sys2Proof Sys2Proof.Machine

/-! ### Well-formedness: what the checks refuse -/

/-- Op 0x7 is a row of its own (30_encoding.md R74). -/
theorem test_wf_refuses_op7_as_8toF : (Instr.reserved8toF 0x7).wf = false := by decide
theorem test_wf_refuses_op0_as_8toF : (Instr.reserved8toF 0x0).wf = false := by decide
theorem test_wf_admits_8_and_F :
    (Instr.reserved8toF 0x8).wf = true ∧ (Instr.reserved8toF 0xF).wf = true := by decide
theorem test_wf_refuses_more_queued_than_requested : (Descriptor.mk 10 700 11).wf = false := by decide

/-! ### Decoding: `op` in bits [67:64], `A` in [63:32], `B` in [31:0] -/

/-- S1 line 1. -/
theorem test_decode_init : decode 0x1_00000000_00000000 = .init := by decide
/-- V20. -/
theorem test_decode_put : decode 0x2_000003E8_000001F4 = .put 1000 500 := by decide
/-- V21: 200 = 0xC8 in `A`, 300 = 0x12C in `B`. -/
theorem test_decode_put_negative_delta : decode 0x2_000000C8_0000012C = .put 200 300 := by decide
/-- S2 line 6. -/
theorem test_decode_full : decode 0x3_00000000_00000000 = .full := by decide
/-- V11: the fields are ignored. -/
theorem test_decode_empty_ignores_fields : decode 0x4_12345678_9ABCDEF0 = .empty := by decide
/-- V9: `B[0]` is 0. -/
theorem test_decode_get_clip0 : decode 0x5_DEADBEEF_FFFFFFFE = .get false := by decide
/-- V10: `B[0]` is 1. -/
theorem test_decode_get_clip1 : decode 0x5_00000000_FFFFFFFF = .get true := by decide
/-- V29. -/
theorem test_decode_begin : decode 0x6_00000000_000001F4 = .beginDda 500 := by decide
/-- V1. -/
theorem test_decode_reserved0 : decode 0x0_00000000_00000000 = .reserved0 := by decide
/-- V2. -/
theorem test_decode_reserved7 : decode 0x7_00000000_00000000 = .reserved7 := by decide
/-- V3. -/
theorem test_decode_reservedF : decode 0xF_FFFFFFFF_FFFFFFFF = .reserved8toF 0xF := by decide
/-- Op 0x8 written out: bit 67 alone. -/
theorem test_decode_reserved8 : decode 0x8_00000000_00000000 = .reserved8toF 0x8 := by decide

/-- A 69th bit is refused by name. -/
theorem test_decode_refuses_69_bits : decodeBits (2 ^ 68) = .error .wider68 := by decide
/-- Bits from `nbits` up count as 0. -/
theorem test_table_word_masks :
    decodeTableWord 72 0x5_00000000_00000001 = some (.get true) ∧
    decodeTableWord 72 (2 ^ 72 + 0x1_00000000_00000000) = some .init := by decide

/-- The words S1 and S3 print for the commands (R81). -/
theorem test_encode_words :
    encode (.put 1000 500) = 0x2_000003E8_000001F4 ∧ encode (.get true) = 0x5_00000000_00000001 ∧
    encode (.beginDda 500) = 0x6_00000000_000001F4 ∧ encode .init = 0x1_00000000_00000000 := by
  decide

/-- `OK 256` is 0x0_00000100 and `ERR 0` is 0x3_00000000 (conventions of 95). -/
theorem test_response_words :
    (okWith 256).toWord = 0x0_00000100 ∧ (failWith .err).toWord = 0x3_00000000 ∧
    (failWith .empty).toWord = 0x1_00000000 ∧ (failWith .full).toWord = 0x2_00000000 := by decide

/-! ### Commands on the registers -/

/-- The example configuration of 95, with `C_START` and `C_MIN` given. -/
def exampleConfig (cStart cMin : Word) : Config where
  accelPShift := 16
  accelWord0 := 0x100
  accelRest := [0x80, 0x40, 0x20]
  cMin := cMin
  cStartAsked := cStart
  fillProposal := oneEntry
  tickTime := 1

/-- The registers after INIT with `C_START` = 0. -/
def fresh : Planner := Planner.reset 0

/-- One live segment of seven steps at slot 0, on the way from `c` to `e`. -/
def ramp (c e : Word) (accel : Bool) : Planner :=
  { fresh with currC := c, endC := e, accel := accel, nextN := #v[7, 0, 0, 0], tail := 1 }

/-- S3 line 1: INIT with `C_START` = 500. -/
theorem test_init_starts_at_500 :
    ((ramp 3 4 true).init (exampleConfig 500 0)).1 = Planner.reset 500 ∧
    (Planner.reset 500).planC = 500 := by decide

/-- V20 then V21. -/
theorem test_put_stores_deltas :
    let r := ((fresh.put 1000 500).1.put 200 300).1
    r.nextDc = #v[0x1F4, 0xFFFFFF38, 0, 0] ∧ r.nextN = #v[1000, 200, 0, 0] ∧ r.tail = 2 ∧
      r.planC = 300 := by decide

/-- V17: `tail` wraps; V23: the delta wraps. -/
theorem test_put_wraps :
    ({ fresh with tail := 3, planC := 0xFFFFFFFF }.put 1 0).1 =
      { fresh with tail := 0, nextDc := #v[0, 0, 0, 1], nextN := #v[0, 0, 0, 1], planC := 0 } := by
  decide

/-- S2 line 7 and V26: a full queue, and 0 steps tested before the queue. -/
theorem test_put_refusals :
    let r : Planner := { fresh with nextN := #v[10, 20, 30, 40], planC := 900 }
    r.put 5 100 = (r, ⟨.full, 0⟩) ∧ r.put 0 500 = (r, ⟨.err, 0⟩) := by decide

/-- V14. -/
theorem test_full_when_cursors_meet :
    let r : Planner := { fresh with head := 2, tail := 2, nextN := #v[3, 4, 5, 6] }
    r.full.2 = ⟨.ok, 1⟩ ∧ r.empty.2 = ⟨.ok, 0⟩ := by decide
/-- V16: two live slots. -/
theorem test_full_of_two :
    ({ fresh with head := 3, tail := 1, nextN := #v[7, 0, 0, 2] } : Planner).full.2 = ⟨.ok, 0⟩ := by
  decide
/-- V12. -/
theorem test_empty_after_init : fresh.empty = (fresh, ⟨.ok, 1⟩) := by decide
/-- V15. -/
theorem test_empty_when_cursors_meet :
    ({ fresh with head := 2, tail := 2 } : Planner).empty.2 = ⟨.ok, 1⟩ := by decide

/-- V30 and V34: the flag is an unsigned comparison. -/
theorem test_begin_sets_flag :
    ((ramp 0 0 false).beginDda 500).1 = ramp 0 500 true ∧
    ((ramp 0xFFFFFFFF 0xFFFFFFFF false).beginDda 0).1 = ramp 0xFFFFFFFF 0 false := by decide
/-- V29. -/
theorem test_begin_on_empty : fresh.beginDda 500 = (fresh, ⟨.empty, 0⟩) := by decide

/-- V37 to V39: clamp, overshoot, turn back. -/
theorem test_get_updates :
    let cfg := exampleConfig 0 0
    let after (r : Planner) := { r with accelPerTick := 256, nextN := #v[6, 0, 0, 0] }
    (ramp 512 600 true).get cfg true = (after (ramp 600 600 false), ⟨.ok, 600⟩) ∧
    (ramp 512 600 true).get cfg false = (after (ramp 768 600 false), ⟨.ok, 768⟩) ∧
    (ramp 768 600 false).get cfg false = (after (ramp 512 600 true), ⟨.ok, 512⟩) := by decide

/-- V65: the old target was not reached, and the next segment's delta is added to the old `end_c`. -/
theorem test_get_loads_next :
    let r : Planner := { ramp 256 1000 true with
      nextN := #v[1, 3, 0, 0], nextDc := #v[0, 0xFFFFFF9C, 0, 0], tail := 2 }
    r.get (exampleConfig 0 0) true =
      ({ r with nextN := #v[0, 3, 0, 0], head := 1, accelPerTick := 256, currC := 512, endC := 900 },
        ⟨.ok, 512⟩) := by decide

/-- V45, V47 to V51 and V53a: the update by itself. -/
theorem test_velocity_update :
    velocityUpdate 0 0xFFFFFF00 0xFFFFFFFF true 0x200 false = 0xFFFFFFFF ∧
    velocityUpdate 0 0xFFFFFF00 0xFFFFFFF0 true 0x200 false = 0xFFFFFFFF ∧
    velocityUpdate 0 0xFFFFFF00 0xFFFFFFF0 true 0x200 true = 0xFFFFFFF0 ∧
    velocityUpdate 0 0x100 0x10 false 0x200 false = 0 ∧
    velocityUpdate 0 0x100 0x10 false 0x200 true = 0x10 ∧
    velocityUpdate 0x180 0x300 0x10 false 0x200 true = 0x180 ∧
    velocityUpdate 0 1000 2000 false 256 true = 2000 := by decide

/-- V54, V55, V57 to V59: the table index, clamped at the last word. -/
theorem test_table_index :
    let cfg := exampleConfig 0 0
    accelLookup cfg 0x0000FFFF = 0x100 ∧ accelLookup cfg 0x00010000 = 0x80 ∧
    accelLookup cfg 0x00020000 = 0x40 ∧ accelLookup cfg 0x00030000 = 0x20 ∧
    accelLookup cfg 0x00040000 = 0x20 := by decide

/-- V74's first entry under the default policy, and R129's bound on a proposal that breaks it. -/
theorem test_fill_entry :
    fillEntry (exampleConfig 0 0) ⟨10, 700, 0⟩ = (10, 700) ∧
    fillEntry { exampleConfig 0 0 with fillProposal := fun _ => (99, 7) } ⟨10, 700, 8⟩ = (2, 7) ∧
    fillEntry { exampleConfig 0 0 with fillProposal := fun _ => (0, 7) } ⟨10, 700, 8⟩ = (1, 7) := by
  decide

/-- 93 U4: `advance_head` on a slot with steps left. -/
theorem test_advance_head_early :
    advanceHeadCall (ramp 0 0 false) 7 = .fault .advanceHeadEarly := rfl

/-! ### Steps of the machine -/

/-- Nothing in flight, INIT done, the registers `r`, the port field `p`, and these inputs. -/
def idle (p : Port) (r : Planner) (inputs : List Event) : State :=
  { State.reset with planner := r, port := p, inputs := inputs }

/-- Some next state is answered. -/
def goesOn (s : State) : Bool :=
  match step s with
  | .next _ => true
  | _ => false

theorem next_of_goesOn {s : State} (h : goesOn s = true) : ∃ t, step s = .next t := by
  unfold goesOn at h
  split at h
  · exact ⟨_, ‹_›⟩
  · exact absurd h (by decide)

/-- V1: the all-zero word on port P. -/
theorem test_step_reserved :
    step (idle .P fresh [.present .P 0]) =
      .next { idle .P fresh [] with rspP := some ⟨.err, 0⟩ } := rfl

/-- V5 and V6: PUT on port C, GET on port P. -/
theorem test_step_wrong_port :
    step (idle .P fresh [.present .C 0x2_00000005_00000064]) =
      .next { idle .C fresh [] with rspC := some ⟨.err, 0⟩ } ∧
    step (idle .P (ramp 0 0 false) [.present .P 0x5_00000000_00000001]) =
      .next { idle .P (ramp 0 0 false) [] with rspP := some ⟨.err, 0⟩ } := ⟨rfl, rfl⟩

/-- The registers in the middle of P5 to P6: the head slot live, `tail` not yet moved. -/
def published : Planner := { fresh with nextN := #v[4, 0, 0, 0], nextDc := #v[0x3E8, 0, 0, 0] }

/-- A consumer's FULL between P5 and P6 of the first PUT reads the stale `tail`: it answers 1
(20_memory.md R62; 40_queue.md R91). -/
theorem test_full_between_p5_and_p6 :
    step { idle .P published [.present .C 0x3_00000000_00000000] with
        flightP := some ⟨0x2_00000004_000003E8, .p6 4 1000 0 0⟩ } =
      .next { idle .C published [] with
        flightP := some ⟨0x2_00000004_000003E8, .p6 4 1000 0 0⟩, rspC := some ⟨.ok, 1⟩ } := rfl

/-- V71, by FILL's own actions: the call, and its first PUT asked for and answered. -/
theorem test_fill_credits_its_descriptor :
    step { idle .P fresh [.micro .P] with
        fill := some ⟨0, 0, some 1000⟩, ddas := [⟨1000, 500, 0⟩], rspP := some ⟨.ok, 0⟩ } =
      .next { idle .P fresh [] with
        fill := some ⟨0, 1000, none⟩, ddas := [⟨1000, 500, 1000⟩], rspP := some ⟨.ok, 0⟩ } := rfl

/-- A word placed by the host is the next thing that happens, on a port that accepts it. -/
theorem test_with_fetch_word :
    step (State.withFetchWord (idle .P (ramp 0 0 false) []) 72 0x6_00000000_000001F4) =
      .next { idle .C (ramp 0 500 true) [] with rspC := some ⟨.ok, 0⟩ } := rfl

/-! ### Witnesses: the hypotheses of each obligation can be met -/

theorem witness_DecodeEncodeAgree :
    (Instr.reserved8toF 8).wf = true ∧ (Instr.reserved8toF 15).wf = true ∧
    (Instr.put 0xFFFFFFFF 0).wf = true := by decide

/-- Op 0, op 7 and op F, presented and started, on both ports. -/
theorem witness_ReservedCodesAnswerErr :
    (idle .P fresh []).busy .P = false ∧ (idle .C fresh []).busy .C = false ∧
    (opField 0 = 0 ∨ 7 ≤ (opField 0).toNat) ∧
    (opField 0x7_00000000_00000000 = 0 ∨ 7 ≤ (opField 0x7_00000000_00000000).toNat) ∧
    (opField 0xF_00000000_00000000 = 0 ∨ 7 ≤ (opField 0xF_00000000_00000000).toNat) ∧
    (idle .P fresh [.present .P 0]).inputs = .present .P 0 :: [] ∧
    (idle .C fresh [.start .C 0x7_00000000_00000000]).inputs = .start .C 0x7_00000000_00000000 :: [] ∧
    (idle .P fresh []).port = .P ∧ (idle .C fresh []).port = .C := by decide

theorem witness_WrongPortAnswersErr :
    ((idle .C fresh []).port = .C ∧ (idle .C fresh []).flightC = none) ∧
    (idle .P fresh []).port = .P ∧ (idle .P fresh []).flightP = none ∧
    (idle .P fresh []).fill = none := by decide

theorem witness_FailureResponsesCarryZero :
    (idle .P fresh [.present .P 0]).RspInv ∧ ∃ t, step (idle .P fresh [.present .P 0]) = .next t :=
  ⟨⟨fun _ h => absurd h nofun, fun _ h => absurd h nofun⟩, next_of_goesOn (by decide)⟩

/-- Both ports are ready, and INIT may be issued on port P. -/
theorem witness_FirstConditionIsReported :
    ((idle .P fresh []).ready ∧
      (Instr.init = .init → (idle .P fresh []).port = .P → (idle .P fresh []).flightC = none)) ∧
    (idle .C fresh []).ready ∧
      (Instr.init = .init → (idle .C fresh []).port = .P → (idle .C fresh []).flightC = none) :=
  ⟨⟨⟨rfl, rfl, rfl⟩, fun _ _ => rfl⟩, ⟨rfl, rfl, rfl⟩, fun _ _ => rfl⟩

theorem witness_StepRunsTheDecodedCommand :
    (idle .P fresh [.present .C 0x5_00000000_00000001]).inputs =
      .present .C 0x5_00000000_00000001 :: [] := rfl

/-- INIT in flight, before its first micro-step. -/
def initRunning (p : Port) : State :=
  { idle p fresh [] with flightP := some ⟨0x1_00000000_00000000, .i1⟩ }

/-- A consumer command in flight. -/
def emptyRunning (p : Port) : State :=
  { idle p fresh [] with flightC := some ⟨0x4_00000000_00000000, .e1⟩ }

/-- A consumer's transaction in flight, and the producer's only. -/
theorem witness_StepWithoutInputGoesOnConsumerFirst :
    ((emptyRunning .P).inputs = [] ∧ (emptyRunning .P).flightC ≠ none) ∧
    (initRunning .P).inputs = [] ∧ (initRunning .P).flightC = none := by decide

/-- One that goes on, and one that responds. -/
theorem witness_AMicroStepIsTakenOnItsPort :
    (let s := { emptyRunning .P with inputs := [.micro .C] }
     s.inputs = .micro .C :: [] ∧ s.flight .C = some ⟨0x4_00000000_00000000, .e1⟩) ∧
    (let s := { initRunning .P with
       inputs := [.micro .P], flightP := some ⟨0x1_00000000_00000000, .i5⟩ }
     s.inputs = .micro .P :: [] ∧ s.flight .P = some ⟨0x1_00000000_00000000, .i5⟩) := by decide

theorem witness_IdleStepChangesNothing : State.reset.inputs = [] ∧ State.reset.quiet :=
  ⟨rfl, rfl, rfl, rfl⟩

theorem witness_UninterruptedMicroStepsAreTheCommand : (idle .C (ramp 0 500 true) []).inputs = [] :=
  rfl

theorem witness_EveryCommandEndsWhateverTheOtherAgentDoes :
    Micro.first (.get true) = some (.g1 true) ∧ Micro.first (.put 1 2) = some (.p0 1 2) := by decide

theorem witness_InitGivesTheResetValues :
    (State.powerOn.port = .P ∧ State.powerOn.quiet) ∧ State.reset.port = .P ∧ State.reset.quiet :=
  ⟨⟨rfl, rfl, rfl, rfl⟩, rfl, rfl, rfl, rfl⟩

theorem witness_StartIsNeverBelowMinimum : (0x180 : Word) ≤ 0x180 ∧ (0 : Word) ≤ 500 := by decide

theorem witness_BeforeFirstInitCommandsAreRefused :
    State.powerOn.inited = false ∧ State.powerOn.busy State.powerOn.port = false ∧
    Instr.full ≠ .init ∧ acceptedOn .full State.powerOn.port = true :=
  ⟨rfl, rfl, nofun, rfl⟩

theorem witness_OverlapsOfInitAreRefused :
    ((initRunning .C).port = .C ∧ (initRunning .C).flightC = none ∧
      (initRunning .C).inited = true ∧ (initRunning .C).initInFlight = true ∧
      acceptedOn (.get true) .C = true) ∧
    (emptyRunning .P).port = .P ∧ (emptyRunning .P).flightP = none ∧
    (emptyRunning .P).fill = none ∧ (emptyRunning .P).flightC ≠ none := by decide

/-- A FILL call running on descriptor `d`, the only one. -/
def filling (inputs : List Event) (d : Descriptor) (asked : Option Word) (rsp : Option Response) :
    State :=
  { idle .P fresh inputs with fill := some ⟨0, 0, asked⟩, rspP := rsp, ddas := [d] }

theorem witness_SecondTransactionsAreRefused :
    ((initRunning .P).port = .P ∧ (initRunning .P).flightP ≠ none) ∧
    ((filling [] ⟨10, 700, 0⟩ none none).port = .P ∧ (filling [] ⟨10, 700, 0⟩ none none).fill ≠ none) ∧
    (emptyRunning .C).port = .C ∧ (emptyRunning .C).flightC ≠ none := by decide

/-- On both ports. -/
theorem witness_EmptyReportsTheHeadSlot :
    (idle .P fresh []).ready ∧ (idle .C (ramp 0 0 false) []).ready :=
  ⟨⟨rfl, rfl, rfl⟩, rfl, rfl, rfl⟩
theorem witness_FullReportsTheTailSlot :
    (idle .P fresh []).ready ∧ (idle .C { fresh with nextN := #v[1, 1, 1, 1] } []).ready :=
  ⟨⟨rfl, rfl, rfl⟩, rfl, rfl, rfl⟩

theorem witness_PutQueuesTheSegment :
    (idle .P fresh []).port = .P ∧ (idle .P fresh []).readyP ∧ (1 : Word) ≠ 0 ∧
    (idle .P fresh []).planner.nextN[(idle .P fresh []).planner.tail] = 0 :=
  ⟨rfl, ⟨rfl, rfl, rfl⟩, by decide, by decide⟩

theorem witness_PutOnFullQueueChangesNothing :
    let s := idle .P { fresh with nextN := #v[1, 1, 1, 1] } []
    s.port = .P ∧ s.readyP ∧ (5 : Word) ≠ 0 ∧ s.planner.nextN[s.planner.tail] ≠ 0 :=
  ⟨rfl, ⟨rfl, rfl, rfl⟩, by decide, by decide⟩

theorem witness_PutOfZeroStepsAnswersErr :
    (idle .P fresh []).port = .P ∧ (idle .P fresh []).readyP := ⟨rfl, rfl, rfl, rfl⟩

theorem witness_BeginSetsTheTarget :
    let s := idle .C (ramp 0 0 false) []
    s.port = .C ∧ s.readyC ∧ s.planner.nextN[s.planner.head] ≠ 0 :=
  ⟨rfl, ⟨rfl, rfl, rfl⟩, by decide⟩

theorem witness_BeginOnEmptyQueueChangesNothing :
    let s := idle .C fresh []
    s.port = .C ∧ s.readyC ∧ s.planner.nextN[s.planner.head] = 0 :=
  ⟨rfl, ⟨rfl, rfl, rfl⟩, by decide⟩

theorem witness_GetOnEmptyQueueWritesNothing :
    let s := idle .C fresh []
    s.port = .C ∧ s.readyC ∧ s.planner.nextN[s.planner.head] = 0 :=
  ⟨rfl, ⟨rfl, rfl, rfl⟩, by decide⟩

/-- The other hypotheses of the GET statements name values, and any state gives them. -/
theorem witness_GetConsumesOneStep :
    let s := idle .C (ramp 0 500 true) []
    s.port = .C ∧ s.readyC ∧ s.planner.nextN[s.planner.head] ≠ 0 ∧
    s.planner.nextN[s.planner.head] ≠ 1 ∧
    ∃ a c', a = accelLookup Config.platform s.planner.currC ∧
      c' = velocityUpdate Config.platform.cMin s.planner.currC s.planner.endC s.planner.accel a true :=
  ⟨rfl, ⟨rfl, rfl, rfl⟩, by decide, by decide, _, _, rfl, rfl⟩

theorem witness_GetRetiresTheLastSegment :
    let s := idle .C { ramp 0 500 true with nextN := #v[1, 0, 0, 0] } []
    s.port = .C ∧ s.readyC ∧ s.planner.nextN[s.planner.head] = 1 ∧
    s.planner.nextN[s.planner.head + 1] = 0 ∧
    ∃ a c', a = accelLookup Config.platform s.planner.currC ∧
      c' = velocityUpdate Config.platform.cMin s.planner.currC s.planner.endC s.planner.accel a true :=
  ⟨rfl, ⟨rfl, rfl, rfl⟩, by decide, by decide, _, _, rfl, rfl⟩

theorem witness_GetLoadsTheNextSegment :
    let s := idle .C { ramp 0 500 true with head := 3, tail := 1, nextN := #v[9, 0, 0, 1] } []
    s.port = .C ∧ s.readyC ∧ s.planner.nextN[s.planner.head] = 1 ∧
    s.planner.nextN[s.planner.head + 1] ≠ 0 ∧
    ∃ a c' e', a = accelLookup Config.platform s.planner.currC ∧
      c' = velocityUpdate Config.platform.cMin s.planner.currC s.planner.endC s.planner.accel a true ∧
      e' = s.planner.endC + s.planner.nextDc[s.planner.head + 1] :=
  ⟨rfl, ⟨rfl, rfl, rfl⟩, by decide, by decide, _, _, _, rfl, rfl, rfl⟩

/-- The last index of the example table, where nothing is clamped. -/
theorem witness_LookupClampsItsIndex :
    (exampleConfig 0 0).accelPShift = 16 ∧
    (0x3FFFF : Word).toNat / 2 ^ 16 < (exampleConfig 0 0).accelTableLen := by decide

theorem witness_UpdateHoldsAndNeverPassesTheTarget :
    (5 : Word) ≤ 5 ∧ ((0 : Word) ≤ 600 ∧ (512 : Word) < 600) ∧ (0 : Word) ≤ 0 ∧ (0 : Word) < 1 := by
  decide

/-- Five GETs of a ramp from 0 to 1000, the table word 256 throughout. -/
theorem witness_ClippedGetsConverge :
    let cfg := exampleConfig 0 0
    let r := ramp 0 1000 true
    r.flagRight ∧ cfg.cMin ≤ r.endC ∧ 5 ≤ r.nextN[r.head].toNat ∧
    ∀ j, j < 5 → (getTimes cfg true j r).currC ≠ r.endC →
      256 ≤ (accelLookup cfg (getTimes cfg true j r).currC).toNat := by
  refine ⟨by unfold Planner.flagRight; decide, by decide, by decide, by decide⟩

/-- P5: from 512 to 600 the distance is less than the word 256. At distance 488 it is more. -/
theorem witness_UnclippedGetsStayWithinOneWord :
    let cfg := exampleConfig 0 0
    ((ramp 512 600 true).flagRight ∧ cfg.cMin ≤ (600 : Word) ∧ cfg.cMin ≤ (512 : Word) ∧
      (ramp 512 600 true).nextN[(ramp 512 600 true).head] ≠ 0 ∧
      (accelLookup cfg 512).toNat > distance 512 600 ∧ (512 : Word) ≠ 600 ∧
      distance 512 600 < 256 ∧ 7 ≤ (ramp 512 600 true).nextN[(ramp 512 600 true).head].toNat ∧
      ∀ j, j < 7 →
        (accelLookup cfg (getTimes cfg false j (ramp 512 600 true)).currC).toNat ≤ 256) ∧
    (ramp 112 600 true).flagRight ∧ (accelLookup cfg 112).toNat ≤ distance 112 600 := by
  refine ⟨⟨by unfold Planner.flagRight; decide, by decide, by decide, by decide, by decide, by decide,
    by decide, by decide, by decide⟩, by unfold Planner.flagRight; decide, by decide⟩

/-- Two live slots, a PUT between P5 and P6 and a GET between G8 and G9: slot 0 is retired and `head`
not yet moved, slot 2 is published and `tail` not yet moved. -/
def crossing (inputs : List Event) : State :=
  { idle .P { fresh with
      head := 0, tail := 2, nextN := #v[0, 5, 6, 0], nextDc := #v[0, 1, 2, 0],
      currC := 100, endC := 100 } inputs with
    flightP := some ⟨0x2_00000006_00000003, .p6 6 3 2 1⟩
    flightC := some ⟨0x5_00000000_00000001, .g9 ⟨true, 0, 1, 256, 100, 100, false, 100⟩⟩ }

theorem crossing_orderly (inputs : List Event) : (crossing inputs).Orderly where
  portP := fun m h => by injection h with h; subst h; rfl
  portC := fun m h => by injection h with h; subst h; rfl
  initAlone := fun h => absurd h nofun
  beforeInit := fun h => absurd h nofun

theorem crossing_live (k : SlotIx) :
    (#v[0, 5, 6, 0] : Vector Word 4)[(1 : SlotIx) + k] ≠ 0 ↔ k.val < 2 := by
  revert k; decide

theorem crossing_ring (inputs : List Event) : (crossing inputs).RingInv where
  toOrderly := crossing_orderly inputs
  ring := fun _ _ => ⟨2, by decide, rfl, crossing_live⟩
  ringInInit := trivial
  producer := fun m h => by injection h with h; subst h; rfl
  consumer := fun m h => by injection h with h; subst h; rfl

theorem witness_EveryStepKeepsTheRing :
    (crossing [.micro .P]).RingInv ∧ (∃ t, step (crossing [.micro .P]) = .next t) ∧
    (crossing [.micro .C]).RingInv ∧ ∃ t, step (crossing [.micro .C]) = .next t :=
  ⟨crossing_ring _, next_of_goesOn rfl, crossing_ring _, next_of_goesOn rfl⟩

theorem witness_EveryStepKeepsTheFlag :
    (crossing [.micro .C]).FlagInv ∧ ∃ t, step (crossing [.micro .C]) = .next t :=
  ⟨{ toOrderly := crossing_orderly _
     flag := fun _ _ => ⟨rfl, rfl, by unfold Planner.flagRight; decide⟩
     flagInInit := trivial }, next_of_goesOn rfl⟩

/-- At the reset state, whose `curr_c` is `C_START`, and with a command presented. -/
theorem witness_EveryStepKeepsTheFloor :
    let s := idle .P (Planner.reset Config.platform.cStart) [.present .P 0x3_00000000_00000000]
    s.FloorInv ∧ ∃ t, step s = .next t := by
  refine ⟨{ portP := fun _ h => absurd h nofun, portC := fun _ h => absurd h nofun,
            initAlone := fun h => absurd h nofun, beforeInit := fun h => absurd h nofun,
            floor := fun _ => ?_, floorInInit := trivial,
            floorInGet := fun _ h => absurd h nofun }, _, rfl⟩
  show Config.platform.cMin ≤ Config.platform.cStart
  unfold Config.cStart
  split
  · exact BitVec.le_refl _
  · rename_i h; exact BitVec.not_lt.mp h

theorem first_slot_live (k : SlotIx) :
    (#v[7, 0, 0, 0] : Vector Word 4)[(0 : SlotIx) + k] ≠ 0 ↔ k.val < 1 := by
  revert k; decide

/-- One live segment, nothing in flight. -/
theorem idle_ring (p : Port) (inputs : List Event) : (idle p (ramp 0 500 true) inputs).RingInv where
  portP := fun _ h => absurd h nofun
  portC := fun _ h => absurd h nofun
  initAlone := fun h => absurd h nofun
  beforeInit := fun h => absurd h nofun
  ring := fun _ _ => ⟨1, by decide, rfl, first_slot_live⟩
  ringInInit := trivial
  producer := fun _ h => absurd h nofun
  consumer := fun _ h => absurd h nofun

theorem witness_SentinelTestsAreExact :
    let s := idle .P (ramp 0 500 true) []
    s.RingInv ∧ s.inited = true ∧ s.initInFlight = false ∧
    (∀ l, s.microOn .C ≠ some (.g9 l)) ∧ ∀ n v t p, s.microOn .P ≠ some (.p6 n v t p) :=
  ⟨idle_ring _ _, rfl, rfl, fun _ => nofun, fun _ _ _ _ => nofun⟩

/-- The PUT that makes the free slot `tail` names live. -/
theorem witness_LiveSlotsAreNeverOverwritten :
    let s := idle .P (ramp 0 500 true) [.present .P 0x2_00000005_00000064]
    s.RingInv ∧ s.inited = true ∧ s.initInFlight = false ∧
    (∀ w rest, s.inputs = .present .P w :: rest → decode w ≠ .init) ∧ (∃ t, step s = .next t) ∧
    s.planner.nextN[0] ≠ 0 ∧ s.planner.nextN[1] = 0 ∧
      ∃ t, step s = .next t ∧ t.planner.nextN[1] ≠ 0 := by
  refine ⟨idle_ring _ _, rfl, rfl, ?_, ⟨_, rfl⟩, by decide, by decide, _, rfl, by decide⟩
  intro w rest h
  injection h with h _
  injection h with _ h
  subst h
  decide

theorem witness_CursorsMoveOneSlotAtATime :
    let s := crossing [.micro .C]
    s.RingInv ∧ s.inited = true ∧ s.initInFlight = false ∧
    (∀ w rest, s.inputs = .present .P w :: rest → decode w ≠ .init) ∧ ∃ t, step s = .next t :=
  ⟨crossing_ring _, rfl, rfl, fun _ _ h => absurd h nofun, next_of_goesOn rfl⟩

/-- A PUT before P5: its delta 3 is in the free slot 1. -/
def publishing : State :=
  { idle .P { ramp 0 500 true with nextDc := #v[0, 3, 0, 0] } [.micro .P] with
    flightP := some ⟨0x2_00000006_00000003, .p5 6 3 1 0⟩ }

theorem publishing_ring : publishing.RingInv where
  portP := fun m h => by injection h with h; subst h; rfl
  portC := fun _ h => absurd h nofun
  initAlone := fun h => absurd h nofun
  beforeInit := fun h => absurd h nofun
  ring := fun _ _ => ⟨1, by decide, rfl, first_slot_live⟩
  ringInInit := trivial
  producer := fun m h => by
    injection h with h; subst h
    exact ⟨by decide, rfl, rfl, rfl⟩
  consumer := fun _ h => absurd h nofun

/-- What a GET on the last step of slot 0 knows before G8, in cruise at 100. -/
def lastStep : GetLocals := ⟨true, 0, 1, 256, 100, 100, false, 100⟩

/-- A GET before G8. -/
def retiring : State :=
  { idle .C { fresh with nextN := #v[1, 0, 0, 0], tail := 1, currC := 100, endC := 100 }
      [.micro .C] with
    flightC := some ⟨0x5_00000000_00000001, .g8 lastStep⟩ }

theorem last_slot_live (k : SlotIx) :
    (#v[1, 0, 0, 0] : Vector Word 4)[(0 : SlotIx) + k] ≠ 0 ↔ k.val < 1 := by
  revert k; decide

theorem retiring_ring : retiring.RingInv where
  portP := fun _ h => absurd h nofun
  portC := fun m h => by injection h with h; subst h; rfl
  initAlone := fun h => absurd h nofun
  beforeInit := fun h => absurd h nofun
  ring := fun _ _ => ⟨1, by decide, rfl, last_slot_live⟩
  ringInInit := trivial
  producer := fun _ h => absurd h nofun
  consumer := fun m h => by injection h with h; subst h; exact ⟨rfl, rfl⟩

theorem witness_EachAgentWritesItsOwnRegisters :
    ((Micro.p5 1 2 0 0).isInit = false ∧ (Micro.p5 1 2 0 0).ofPort .P = true) ∧
    ((Micro.b3 7 0 1).isInit = false ∧ (Micro.b3 7 0 1).ofPort .C = true) ∧
    ((crossing []).RingInv ∧ (crossing []).microOn .P = some (.p6 6 3 2 1) ∧
      (Micro.p6 6 3 2 1).isInit = false ∧
      (crossing []).microOn .C = some (.g9 ⟨true, 0, 1, 256, 100, 100, false, 100⟩)) ∧
    (publishing.RingInv ∧ publishing.microOn .P = some (.p5 6 3 1 0) ∧
      (microStep Config.platform (.p5 6 3 1 0) publishing.planner).1.nextN[1] ≠
        publishing.planner.nextN[1]) ∧
    (retiring.RingInv ∧ retiring.microOn .C = some (.g8 lastStep) ∧
      (microStep Config.platform (.g8 lastStep) retiring.planner).1.nextN[0] ≠
        retiring.planner.nextN[0]) ∧
    (Instr.put 1 2 ≠ .init ∧ (idle .P fresh []).port = .P ∧
      ∃ t, exec (.put 1 2) (idle .P fresh []) = .next t) ∧
    Instr.beginDda 7 ≠ .init ∧ (idle .C (ramp 0 0 false) []).port = .C ∧
      ∃ t, exec (.beginDda 7) (idle .C (ramp 0 0 false) []) = .next t :=
  ⟨by decide, by decide, ⟨crossing_ring _, rfl, rfl, rfl⟩,
    ⟨publishing_ring, rfl, by show (6 : Word) ≠ 0; decide⟩,
    ⟨retiring_ring, rfl, by show (0 : Word) ≠ 1; decide⟩, ⟨nofun, rfl, _, rfl⟩, nofun, rfl, _, rfl⟩

/-- A GET on an empty queue, as a whole command and micro-step by micro-step. -/
theorem witness_FailedCommandsWriteNoRegister :
    (∃ t, exec (.get true) (idle .C fresh []) = .next t ∧
      t.rsp (idle .C fresh []).port = some ⟨.empty, 0⟩ ∧ (⟨.empty, 0⟩ : Response).status ≠ .ok) ∧
    Micro.first (.get true) = some (.g1 true) ∧
    driven (exampleConfig 0 0) (fun _ => fresh) 14 0 (.g1 true) = .done ⟨.empty, 0⟩ :=
  ⟨⟨_, rfl, rfl, nofun⟩, rfl, by decide⟩

theorem witness_StepsAreConserved :
    Instr.put 5 9 ≠ .init ∧ ∃ t, exec (.put 5 9) (idle .P fresh []) = .next t :=
  ⟨nofun, _, rfl⟩

/-- A PUT presented whole, a PUT's P5, a GET's G8. -/
theorem witness_StepsAreConservedAtEveryStep :
    (let s := idle .P (ramp 0 500 true) [.present .P 0x2_00000005_00000064]
     s.RingInv ∧ s.NoInitNext ∧ ∃ t, step s = .next t) ∧
    (publishing.RingInv ∧ publishing.NoInitNext ∧ (∃ t, step publishing = .next t) ∧
      publishedBy publishing.microTaken = 6) ∧
    (retiring.RingInv ∧ retiring.NoInitNext ∧ (∃ t, step retiring = .next t) ∧
      retiredBy retiring.microTaken = 1) := by
  refine ⟨⟨idle_ring _ _, ⟨?_, fun _ h => absurd h nofun⟩, _, rfl⟩,
    ⟨publishing_ring, ⟨fun _ _ h => absurd h nofun, ?_⟩, next_of_goesOn rfl, rfl⟩,
    ⟨retiring_ring, ⟨fun _ _ h => absurd h nofun, ?_⟩, next_of_goesOn rfl, rfl⟩⟩
  · intro w rest h
    injection h with h _
    injection h with _ h
    subst h
    decide
  · intro m h; injection h with h; subst h; rfl
  · intro m h; injection h with h; subst h; rfl

theorem ramp_live (c e : Word) (a : Bool) : (ramp c e a).Live 1 :=
  ⟨by decide, rfl, first_slot_live⟩

/-- A PUT accepted, a BEGIN and a GET accepted between P5 and P6 of a PUT, and a GET turned away. -/
theorem witness_OnlyTheseEventsChangeAPhase :
    (∃ t rsp, (ramp 0 0 false).Live 1 ∧
      exec (.put 5 9) (idle .P (ramp 0 0 false) []) = .next t ∧ t.rsp .P = some rsp ∧
      rsp.status = .ok) ∧
    (∃ t rsp,
      exec (.beginDda 9) { idle .C published [] with flightP := some ⟨0, .p6 4 1000 0 0⟩ } = .next t ∧
      t.rsp .C = some rsp ∧ rsp.status = .ok) ∧
    (∃ t rsp,
      exec (.get true) { idle .C published [] with flightP := some ⟨0, .p6 4 1000 0 0⟩ } = .next t ∧
      t.rsp .C = some rsp ∧ rsp.status = .ok) ∧
    ∃ t rsp, exec (.get true) (idle .C fresh []) = .next t ∧
      t.rsp .C = some rsp ∧ rsp.status ≠ .ok :=
  ⟨⟨_, _, ramp_live _ _ _, rfl, rfl, rfl⟩, ⟨_, _, rfl, rfl, rfl⟩, ⟨_, _, rfl, rfl, rfl⟩,
    ⟨_, _, rfl, rfl, nofun⟩⟩

/-- A ramp down to `C_MIN` itself, and one up to the end of the range. -/
theorem witness_GetMovesTheMotionPhase :
    (let s := idle .C (ramp 0xFFFFFFFF Config.platform.cMin false) []
     s.port = .C ∧ s.planner.flagRight ∧ Config.platform.cMin ≤ s.planner.currC ∧
     Config.platform.cMin ≤ s.planner.endC ∧
     ∃ t d, exec (.get false) s = .next t ∧ t.rspC = some ⟨.ok, d⟩) ∧
    (let s := idle .C (ramp Config.platform.cMin 0xFFFFFFFF
       (accelFlag Config.platform.cMin 0xFFFFFFFF)) []
     s.port = .C ∧ s.planner.flagRight ∧ Config.platform.cMin ≤ s.planner.currC ∧
     Config.platform.cMin ≤ s.planner.endC ∧
     ∃ t d, exec (.get true) s = .next t ∧ t.rspC = some ⟨.ok, d⟩) := by
  have top : Config.platform.cMin ≤ (0xFFFFFFFF : Word) := by bv_omega
  refine ⟨⟨rfl, ?_, top, BitVec.le_refl _, _, _, rfl, rfl⟩,
    ⟨rfl, rfl, BitVec.le_refl _, top, _, _, rfl, rfl⟩⟩
  show false = decide ((0xFFFFFFFF : Word) < Config.platform.cMin)
  exact (decide_eq_false (BitVec.not_lt.mpr top)).symm

/-- P1 after line 5: three segments queued with the speeds 1000, 1000, 200. -/
def threeQueued (n0 : Word) : Planner :=
  { fresh with nextN := #v[n0, 3, 5, 0], nextDc := #v[0x3E8, 0, 0xFFFFFCE0, 0], tail := 3,
               planC := 200, endC := 1000, accel := true }

theorem threeQueued_queued (n0 : Word) (h : n0 ≠ 0) : (threeQueued n0).Queued 1000 [1000, 200] := by
  refine ⟨⟨by decide, rfl, ?_⟩, rfl, rfl, rfl⟩
  intro k
  match k with
  | 0 => exact ⟨fun _ => by decide, fun _ => h⟩
  | 1 => exact ⟨fun _ => by decide, fun _ => by show (3 : Word) ≠ 0; decide⟩
  | 2 => exact ⟨fun _ => by decide, fun _ => by show (5 : Word) ≠ 0; decide⟩
  | 3 => exact ⟨fun h => absurd rfl h, fun h => absurd h (by decide)⟩

theorem fresh_live : fresh.Live 0 := ⟨by decide, by decide, by decide⟩

/-- Clause by clause: P1's flow, and the last segment of a ramp retired. -/
theorem witness_EndCIsTheHeadSegmentsSpeed :
    (∃ t, exec .init (idle .P (ramp 0 500 true) []) = .next t) ∧
    (∃ t, fresh.Live 0 ∧ exec (.put 4 1000) (idle .P fresh []) = .next t ∧
      t.rspP = some ⟨.ok, 0⟩) ∧
    (∃ t, (threeQueued 4).Queued 1000 [1000, 200] ∧
      exec (.beginDda 1000) (idle .C (threeQueued 4) []) = .next t) ∧
    (∃ t, (threeQueued 4).Queued 1000 [1000, 200] ∧ (threeQueued 4).Tracks 1000 [1000, 200] ∧
      exec (.put 2 600) (idle .P (threeQueued 4) []) = .next t ∧ t.rspP = some ⟨.ok, 0⟩) ∧
    (∃ t, (threeQueued 4).Queued 1000 [1000, 200] ∧ (threeQueued 4).nextN[(threeQueued 4).head] ≠ 1 ∧
      exec (.get true) (idle .C (threeQueued 4) []) = .next t) ∧
    (∃ t, (threeQueued 1).Queued 1000 [1000, 200] ∧ (threeQueued 1).Tracks 1000 [1000, 200] ∧
      (threeQueued 1).nextN[(threeQueued 1).head] = 1 ∧
      exec (.get true) (idle .C (threeQueued 1) []) = .next t) ∧
    ∃ t, ({ ramp 0 500 true with nextN := #v[1, 0, 0, 0] } : Planner).Queued 0 [] ∧
      exec (.get true) (idle .C { ramp 0 500 true with nextN := #v[1, 0, 0, 0] } []) = .next t :=
  have four := threeQueued_queued 4 (by decide)
  have one := threeQueued_queued 1 (by decide)
  ⟨⟨_, rfl⟩, ⟨_, fresh_live, rfl, rfl⟩, ⟨_, four, rfl⟩, ⟨_, four, ⟨four, rfl⟩, rfl, rfl⟩,
    ⟨_, four, by decide, rfl⟩, ⟨_, one, ⟨one, rfl⟩, by decide, rfl⟩,
    ⟨_, ⟨⟨by decide, rfl, last_slot_live⟩, rfl⟩, rfl⟩⟩

theorem witness_FillEntriesAreWithinTheRequest :
    (9 : Word) < 10 ∧ ((exampleConfig 0 0).fillProposal ⟨10, 700, 9⟩).1 ≠ 0 ∧
    ((exampleConfig 0 0).fillProposal ⟨10, 700, 9⟩).1 ≤ (10 : Word) - 9 := by decide

/-- A PUT's answer credited, and the owner asking for more. -/
theorem witness_FillNeverQueuesTooMuch :
    (let s := filling [.micro .P] ⟨10, 700, 7⟩ (some 3) (some ⟨.ok, 0⟩)
     s.FillInv ∧ s.NoShortening ∧ ∃ t, step s = .next t) ∧
    (let s := filling [.amend 0 10 600] ⟨10, 700, 7⟩ (some 3) none
     s.FillInv ∧ s.NoShortening ∧ ∃ t, step s = .next t) := by
  have inv : ∀ inputs rsp, (filling inputs ⟨10, 700, 7⟩ (some 3) rsp).FillInv := fun _ _ =>
    { within := fun d h => by simp only [filling, List.mem_singleton] at h; subst h; decide
      running := fun l h => by
        injection h with h; subst h
        refine ⟨_, rfl, fun n h => ?_⟩
        injection h with h; subst h
        decide }
  refine ⟨⟨inv _ _, fun _ _ _ _ _ h => absurd h nofun, next_of_goesOn rfl⟩,
    ⟨inv _ _, ?_, next_of_goesOn rfl⟩⟩
  intro ref n v rest d h hd
  injection h with h _
  injection h with h1 h2 _
  subst h1 h2
  injection hd with hd
  subst hd
  decide

theorem witness_OwnersWriteTheirDescriptors :
    (idle .P fresh [.create 10 700]).inputs = .create 10 700 :: [] ∧
    (let s := filling [.amend 0 20 600] ⟨10, 700, 7⟩ none none
     s.inputs = .amend 0 20 600 :: [] ∧ s.descriptor 0 = some ⟨10, 700, 7⟩) ∧
    (let s := filling [.amend 1 20 600] ⟨10, 700, 7⟩ none none
     s.inputs = .amend 1 20 600 :: [] ∧ s.descriptor 1 = none) :=
  ⟨rfl, ⟨rfl, rfl⟩, rfl, rfl⟩

/-- The call begun, refused beside a command, beside a FILL call, before INIT and without a descriptor. -/
theorem witness_FillBeginsOrIsRefused :
    (let s := { idle .P fresh [.fill 0] with ddas := [⟨10, 700, 0⟩] }
     s.inputs = .fill 0 :: [] ∧ s.readyP ∧ s.descriptor 0 = some ⟨10, 700, 0⟩) ∧
    ({ initRunning .P with inputs := [.fill 0] } : State).flightP ≠ none ∧
    (filling [.fill 0] ⟨10, 700, 0⟩ none none).fill ≠ none ∧
    (let s := { State.powerOn with inputs := [.fill 0] }
     s.flightP = none ∧ s.fill = none ∧ s.inited = false) ∧
    (let s := idle .P fresh [.fill 0]
     s.readyP ∧ s.descriptor 0 = none) :=
  ⟨⟨rfl, ⟨rfl, rfl, rfl⟩, rfl⟩, nofun, nofun, ⟨rfl, rfl, rfl⟩, ⟨rfl, rfl, rfl⟩, rfl⟩

/-- The PUT of FILL answered `OK`, and answered `FULL`; a descriptor fully queued in the call, and V72:
before it. -/
theorem witness_FillCountsWhatItQueued :
    (let s := filling [.micro .P] ⟨10, 700, 0⟩ (some 3) (some ⟨.ok, 0⟩)
     s.inputs = .micro .P :: [] ∧ s.flightP = none ∧ s.fill = some ⟨0, 0, some 3⟩ ∧
     s.descriptor 0 = some ⟨10, 700, 0⟩ ∧ s.rspP = some ⟨.ok, 0⟩) ∧
    (let s := filling [.micro .P] ⟨10, 700, 0⟩ (some 3) (some ⟨.full, 0⟩)
     s.inputs = .micro .P :: [] ∧ s.flightP = none ∧ s.fill = some ⟨0, 0, some 3⟩ ∧
     s.descriptor 0 = some ⟨10, 700, 0⟩ ∧ s.rspP = some ⟨.full, 0⟩) ∧
    (let s := filling [.micro .P] ⟨10, 700, 10⟩ none (some ⟨.ok, 0⟩)
     s.inputs = .micro .P :: [] ∧ s.flightP = none ∧ s.fill = some ⟨0, 0, none⟩ ∧
     s.descriptor 0 = some ⟨10, 700, 10⟩ ∧ (10 : Word) ≤ 10) ∧
    (let s := { idle .P fresh [.fill 0, .micro .P] with ddas := [⟨1000, 500, 1000⟩] }
     s.inputs = .fill 0 :: .micro .P :: [] ∧ s.readyP ∧
     s.descriptor 0 = some ⟨1000, 500, 1000⟩ ∧ (1000 : Word) ≤ 1000) :=
  ⟨⟨rfl, rfl, rfl, rfl, rfl⟩, ⟨rfl, rfl, rfl, rfl, rfl⟩, ⟨rfl, rfl, rfl, rfl, by decide⟩,
    ⟨rfl, ⟨rfl, rfl, rfl⟩, rfl, by decide⟩⟩

/-- Room in the queue, and a full one after four entries (V75). -/
theorem witness_FillIssuesThePolicysPut :
    let s := filling [.micro .P] ⟨10, 700, 9⟩ none none
    let full := { s with planner := { fresh with nextN := #v[3, 3, 3, 3] } }
    (∀ s' ∈ [s, full], s'.inputs = .micro .P :: [] ∧ s'.flightP = none ∧ s'.inited = true ∧
      s'.fill = some ⟨0, 0, none⟩ ∧ s'.descriptor 0 = some ⟨10, 700, 9⟩) ∧
    (9 : Word) < 10 ∧ ∃ n v, (n, v) = fillEntry Config.platform ⟨10, 700, 9⟩ := by
  refine ⟨?_, by decide, _, _, rfl⟩
  intro s' h
  simp only [List.mem_cons, List.not_mem_nil, or_false] at h
  rcases h with rfl | rfl <;> exact ⟨rfl, rfl, rfl, rfl, rfl⟩

theorem filling_waits_for_nothing (inputs : List Event) (d : Descriptor) (rsp : Option Response) :
    (filling inputs d none rsp).FillWaits := fun l h => by injection h with h; subst h; rfl

theorem filling_waits_for_its_answer (inputs : List Event) (d : Descriptor) (st : Status)
    (h : st = .ok ∨ st = .full) : (filling inputs d (some 3) (some ⟨st, 0⟩)).FillWaits :=
  fun l hl => by injection hl with hl; subst hl; exact ⟨by decide, _, rfl, h⟩

/-- A descriptor fully queued, and a PUT answered `FULL`. -/
theorem witness_FillReturnsOnlyWhenQueuedOrFull :
    (let s := filling [.micro .P] ⟨10, 700, 10⟩ none (some ⟨.ok, 0⟩)
     s.FillWaits ∧ s.fill = some ⟨0, 0, none⟩ ∧ ∃ t, step s = .next t ∧ t.fill = none) ∧
    (let s := filling [.micro .P] ⟨20, 700, 12⟩ (some 3) (some ⟨.full, 0⟩)
     s.FillWaits ∧ s.fill = some ⟨0, 0, some 3⟩ ∧ ∃ t, step s = .next t ∧ t.fill = none) :=
  ⟨⟨filling_waits_for_nothing _ _ _, rfl, _, rfl, rfl⟩,
    filling_waits_for_its_answer _ _ _ (.inr rfl), rfl, _, rfl, rfl⟩

/-- A PUT about to be issued, one in flight, and one answered. -/
theorem witness_FillWaitsForItsOwnPut :
    (let s := filling [.micro .P] ⟨10, 700, 9⟩ none none
     s.FillWaits ∧ ∃ t, step s = .next t) ∧
    (let s := { publishing with fill := some ⟨0, 7, some 6⟩, ddas := [⟨20, 3, 7⟩] }
     s.FillWaits ∧ ∃ t, step s = .next t) ∧
    (let s := filling [.micro .P] ⟨20, 700, 9⟩ (some 3) (some ⟨.ok, 0⟩)
     s.FillWaits ∧ ∃ t, step s = .next t) :=
  ⟨⟨filling_waits_for_nothing _ _ _, _, rfl⟩,
    ⟨fun l h => by injection h with h; subst h; exact ⟨by decide, rfl⟩, _, rfl⟩,
    filling_waits_for_its_answer _ _ _ (.inl rfl), _, rfl⟩

/-- A step of a call with one slot live: it issues a PUT. -/
theorem witness_FillInsertsAtMostTheFreeAndFreedSlots :
    let s : State := { idle .P (ramp 0 500 true) [.micro .P] with
      fill := some ⟨0, 0, none⟩, ddas := [⟨10, 700, 9⟩] }
    s.RingInv ∧ s.fill = some ⟨0, 0, none⟩ ∧ s.flightP = none ∧
    (∀ (j : Nat) (t : State), j < 1 → runFor j s = .next t → t.fill ≠ none) ∧
    alongRun slotsFreed 1 s = 0 := by
  refine ⟨{ idle_ring .P [.micro .P] with }, rfl, rfl, fun j t hj h => ?_, rfl⟩
  obtain rfl : j = 0 := by omega
  injection h with h
  subst h
  exact nofun

/-- A PUT of FILL at P2 of slot 0, with the counts `n` and the inputs `inputs`. -/
def fillAtP2 (n : Vector Word 4) (inputs : List Event) : State :=
  { filling inputs ⟨20, 700, 12⟩ (some 3) none with
    planner := { fresh with nextN := n }
    flightP := some ⟨0x2_00000003_000002BC, .p2 3 700 0⟩ }

/-- The slot live, free, and freed by a GET right before P2. -/
theorem witness_FillsPutIsDecidedAtItsP2 :
    (∀ n inputs, (fillAtP2 n inputs).fill = some ⟨0, 0, some 3⟩ ∧
      (fillAtP2 n inputs).descriptor 0 = some ⟨20, 700, 12⟩ ∧
      (fillAtP2 n inputs).flightP = some ⟨0x2_00000003_000002BC, .p2 3 700 0⟩ ∧
      (fillAtP2 n inputs).inputs = inputs ∧ (fillAtP2 n inputs).inited = true ∧
      (fillAtP2 n inputs).flightC = none ∧ (fillAtP2 n inputs).planner.head = 0 ∧
      (fillAtP2 n inputs).planner.nextN = n) ∧
    (#v[3, 3, 3, 3] : Vector Word 4)[(0 : SlotIx)] ≠ 0 ∧
    (#v[0, 3, 3, 3] : Vector Word 4)[(0 : SlotIx)] = 0 ∧
    (#v[1, 3, 3, 3] : Vector Word 4)[(0 : SlotIx)] = 1 :=
  ⟨fun _ _ => ⟨rfl, rfl, rfl, rfl, rfl, rfl, rfl, rfl⟩, by decide, by decide, by decide⟩

/-- V75: the fifth PUT meets a full queue at its P2 and is refused. -/
theorem test_fill_put_meets_a_full_queue :
    step (fillAtP2 #v[3, 3, 3, 3] [.micro .P]) =
      .next { fillAtP2 #v[3, 3, 3, 3] [] with flightP := none, rspP := some ⟨.full, 0⟩ } := rfl

/-- 20_memory.md R62: a GET between P1 and P2 retires slot 0, and the slot is free at P2. -/
theorem test_get_before_p2_frees_the_slot :
    ∃ t, step (fillAtP2 #v[1, 3, 3, 3] [.present .C 0x5_00000000_00000001]) = .next t ∧
      t.planner.nextN = #v[0, 3, 3, 3] ∧ t.planner.head = 1 ∧
      t.flightP = some ⟨0x2_00000003_000002BC, .p2 3 700 0⟩ := ⟨_, rfl, rfl, rfl, rfl⟩

end Sys2Proof.Tests
end

section
/-! SUPPORT. The scope statements (spec/00_scope.md): R10's constraint on the parameters, one micro-step on
its port (R15), and a command run micro-step by micro-step against the command as one whole (R15 with
spec/20_memory.md R62). -/

namespace Sys2Proof.Machine

/-! ### The parameters (00_scope.md R10) -/

theorem cMin_le_cStart (cfg : Config) : cfg.cMin ≤ cfg.cStart := by
  unfold Config.cStart
  split
  · exact BitVec.le_refl _
  · exact BitVec.not_lt.mp ‹_›

theorem cStart_of_asked (cfg : Config) (h : cfg.cMin ≤ cfg.cStartAsked) :
    cfg.cStart = cfg.cStartAsked :=
  if_neg (BitVec.not_lt.mpr h)

/-- Settles O15: the larger of what is asked for and `C_MIN` is never below `C_MIN`, and is what is asked
for where that is legal. -/
theorem startIsNeverBelowMinimum : Obligations.StartIsNeverBelowMinimum :=
  ⟨cMin_le_cStart, fun lo st h =>
    ⟨{ (default : Config) with cMin := lo, cStartAsked := st }, rfl, cStart_of_asked _ h⟩⟩

/-! ### One micro-step of the transaction in flight (00_scope.md R15, 10_state.md R35) -/

theorem stepFlight_go (s : State) (p : Port) (f : Flight) (m : Micro) (r : Planner)
    (h : microStep Config.platform f.micro s.planner = (r, .go m)) :
    s.stepFlight p f = { s with planner := r }.setFlight p (some ⟨f.word, m⟩) := by
  unfold State.stepFlight; rw [h]

theorem stepFlight_done (s : State) (p : Port) (f : Flight) (r : Planner) (rsp : Response)
    (h : microStep Config.platform f.micro s.planner = (r, .done rsp)) :
    s.stepFlight p f = (s.setFlight p none).complete p f.micro.isInit r rsp := by
  unfold State.stepFlight; rw [h]

/-- `s` with `es` as what the agents do next. -/
def State.withInputs (s : State) (es : List Event) : State := { s with inputs := es }

theorem withInputs_self (s : State) (es : List Event) (h : s.inputs = es) : s.withInputs es = s := by
  subst h; rfl

@[simp] theorem withInputs_flight (s : State) (p : Port) (es : List Event) :
    (s.withInputs es).flight p = s.flight p := by cases p <;> rfl

@[simp] theorem withInputs_admission (s : State) (p : Port) (i : Instr) (es : List Event) :
    (s.withInputs es).admission p i = s.admission p i := by cases p <;> rfl

@[simp] theorem withInputs_answer (s : State) (p : Port) (rsp : Response) (es : List Event) :
    (s.withInputs es).answer p rsp = (s.answer p rsp).withInputs es := by cases p <;> rfl

@[simp] theorem withInputs_launch (s : State) (p : Port) (w : CmdWord) (m : Micro) (es : List Event) :
    (s.withInputs es).launch p w m = (s.launch p w m).withInputs es := by cases p <;> rfl

@[simp] theorem withInputs_stepFlight (s : State) (p : Port) (f : Flight) (es : List Event) :
    (s.withInputs es).stepFlight p f = (s.stepFlight p f).withInputs es := by
  rcases hm : microStep Config.platform f.micro s.planner with ⟨r, m | rsp⟩
  · rw [stepFlight_go s p f m r hm, stepFlight_go (s.withInputs es) p f m r hm]
    cases p <;> rfl
  · rw [stepFlight_done s p f r rsp hm, stepFlight_done (s.withInputs es) p f r rsp hm]
    cases p <;> rfl

theorem step_micro (s : State) (p : Port) (rest : List Event) (hi : s.inputs = .micro p :: rest) :
    step s = advance p (s.withInputs rest) := by
  unfold step; rw [hi]; rfl

theorem advance_of_flight (s : State) (p : Port) (f : Flight) (hf : s.flight p = some f) :
    advance p s = .next (s.stepFlight p f) := by
  unfold advance; rw [hf]

/-- An agent with nothing in flight has nothing to go on with: on port P, no FILL call runs either. -/
def State.idleOn (s : State) (p : Port) : Prop := s.flight p = none ∧ (p = .P → s.fill = none)

theorem advance_of_idle (s : State) (p : Port) (h : s.idleOn p) : advance p s = .next s := by
  obtain ⟨hf, hl⟩ := h
  unfold advance; rw [hf]
  cases p with
  | P => simp only [State.resume, hl rfl]
  | C => rfl

/-- Settles O52: the step is `stepFlight` of the flight on the port, in its two outcomes. -/
theorem aMicroStepIsTakenOnItsPort : Obligations.AMicroStepIsTakenOnItsPort := by
  intro s p f rest hi hf
  rw [step_micro s p rest hi,
    advance_of_flight _ p f ((withInputs_flight s p rest).trans hf)]
  congr 1
  rcases hm : microStep Config.platform f.micro s.planner with ⟨r, m | rsp⟩
  · exact stepFlight_go (s.withInputs rest) p f m r hm
  · rw [stepFlight_done (s.withInputs rest) p f r rsp hm]
    cases p <;> rfl

/-! ### Each command's micro-steps, one after another, are its rule on the registers -/

theorem runMicro_init (cfg : Config) (r : Planner) :
    runMicro cfg 14 .i1 r = ((Planner.init cfg r).1, some (Planner.init cfg r).2) := rfl

theorem runMicro_empty (cfg : Config) (r : Planner) :
    runMicro cfg 14 .e1 r = (r.empty.1, some r.empty.2) := rfl

theorem runMicro_full (cfg : Config) (r : Planner) :
    runMicro cfg 14 .f1 r = (r.full.1, some r.full.2) := rfl

theorem runMicro_put (cfg : Config) (steps speed : Word) (r : Planner) :
    runMicro cfg 14 (.p0 steps speed) r =
      ((r.put steps speed).1, some (r.put steps speed).2) := by
  by_cases hs : steps = 0
  · subst hs; rfl
  rw [runMicro_go (h := microStep_p0 _ _ _ _ hs), runMicro_go (h := rfl)]
  by_cases hf : r.nextN[r.tail] = 0
  · rw [put_of_free _ _ _ hs hf, runMicro_go (h := microStep_p2_free _ _ _ _ _ hf)]
    rfl
  · rw [put_of_full _ _ _ hs hf, runMicro_done (h := microStep_p2_live _ _ _ _ _ hf)]

theorem runMicro_beginDda (cfg : Config) (target : Word) (r : Planner) :
    runMicro cfg 14 (.b1 target) r = ((r.beginDda target).1, some (r.beginDda target).2) := by
  rw [runMicro_go (h := rfl)]
  by_cases hn : r.nextN[r.head] = 0
  · rw [begin_of_empty _ _ hn, runMicro_done (h := microStep_b2_free _ _ _ _ hn)]
  · rw [begin_of_live _ _ hn, runMicro_go (h := microStep_b2_live _ _ _ _ hn)]
    rfl

/-- The local values that GET has read when it comes to G5 (41_velocity_engine.md R100). -/
def getLocals (cfg : Config) (clip : Bool) (r : Planner) : GetLocals where
  clip := clip
  h := r.head
  n := r.nextN[r.head]
  a := accelLookup cfg r.currC
  c := r.currC
  e := r.endC
  dir := r.accel
  c' := (r.updated cfg clip).currC

/-- G1 to G6 on a queue that is not empty are GET's update. -/
theorem runMicro_get_update (cfg : Config) (k : Nat) (clip : Bool) (r : Planner)
    (hn : r.nextN[r.head] ≠ 0) :
    runMicro cfg (k + 6) (.g1 clip) r =
      runMicro cfg k (.g7 (getLocals cfg clip r)) (r.updated cfg clip) := by
  rw [runMicro_go (h := rfl), runMicro_go (h := microStep_g2_live _ _ _ _ hn)]
  rfl

/-- G10 to G14 load the segment at the new head, if it is live. -/
theorem runMicro_get_load (cfg : Config) (l : GetLocals) (r : Planner)
    (hc : l.c' = r.currC) (he : l.e = r.endC) :
    runMicro cfg 5 (.g10 l r.head) r = (r.loadNext, some (okWith l.c')) := by
  by_cases hn : r.nextN[r.head] = 0
  · rw [loadNext_of_free r hn, runMicro_go (h := microStep_g10_free _ _ _ _ hn)]
    rfl
  · rw [loadNext_of_live r hn, runMicro_go (h := microStep_g10_live _ _ _ _ hn)]
    simp only [runMicro, microStep, slotRead_dc, hc, he]

/-- G7 to G14 consume one step of the head segment. -/
theorem runMicro_get_consume (cfg : Config) (l : GetLocals) (r : Planner)
    (hh : l.h = r.head) (hc : l.c' = r.currC) (he : l.e = r.endC) :
    runMicro cfg 8 (.g7 l) r = (r.consumeStep l.n, some (okWith l.c')) := by
  by_cases hn : l.n = 1
  · have retire : runMicro cfg 8 (.g7 l) r =
        runMicro cfg 5 (.g10 l (r.advanceHead r.head).head) (r.advanceHead r.head) := by
      rw [runMicro_go (h := microStep_g7_last _ _ _ hn), ← hh]
      rfl
    rw [retire, hn, consumeStep_of_last]
    exact runMicro_get_load cfg l (r.advanceHead r.head) hc he
  · rw [consumeStep_of_more _ _ hn, runMicro_go (h := microStep_g7_more _ _ _ hn), hh]
    rfl

theorem runMicro_get (cfg : Config) (clip : Bool) (r : Planner) :
    runMicro cfg 14 (.g1 clip) r = ((r.get cfg clip).1, some (r.get cfg clip).2) := by
  by_cases hn : r.nextN[r.head] = 0
  · rw [get_of_empty _ _ _ hn, runMicro_go (h := rfl),
      runMicro_done (h := microStep_g2_free _ _ _ _ hn)]
  · rw [get_of_live _ _ _ hn, consumeStep_currC, runMicro_get_update _ 8 _ _ hn]
    exact runMicro_get_consume cfg (getLocals cfg clip r) (r.updated cfg clip) rfl rfl rfl

/-- A reserved code is refused on a busy port and rejected on a free one (30_encoding.md R75, R78). -/
theorem admission_of_reserved (s : State) (p : Port) (i : Instr) (h : Micro.first i = none) :
    s.admission p i = if s.busy p then .refuse .portBusy else .reject := by
  cases i <;> cases h <;> rfl

theorem perform_of_reserved (s : State) (i : Instr) (h : Micro.first i = none) (body) :
    s.perform i body = s.performReserved := by
  have hadm := admission_of_reserved s s.port i h
  unfold State.performReserved
  split
  · exact perform_of_refuse s i body _ (hadm.trans (if_pos ‹_›))
  · exact perform_of_reject s i body (hadm.trans (if_neg ‹_›))

/-- Every command is performed whole by a rule on the registers, and if it has micro-steps, 14 of them with
nothing between them come to that rule's registers and response. A reserved code's rule is to answer `ERR`. -/
theorem exec_is_perform (i : Instr) :
    ∃ body : Planner → Planner × Response, (∀ s, exec i s = s.perform i body) ∧
      ∀ m r, Micro.first i = some m →
        runMicro Config.platform 14 m r = ((body r).1, some (body r).2) := by
  cases i
  case init => exact ⟨_, fun _ => rfl, fun | _, r, rfl => runMicro_init _ r⟩
  case put steps speed => exact ⟨_, fun _ => rfl, fun | _, r, rfl => runMicro_put _ steps speed r⟩
  case full => exact ⟨_, fun _ => rfl, fun | _, r, rfl => runMicro_full _ r⟩
  case empty => exact ⟨_, fun _ => rfl, fun | _, r, rfl => runMicro_empty _ r⟩
  case get clip => exact ⟨_, fun _ => rfl, fun | _, r, rfl => runMicro_get _ clip r⟩
  case beginDda target => exact ⟨_, fun _ => rfl, fun | _, r, rfl => runMicro_beginDda _ target r⟩
  case reserved0 | reserved7 | reserved8toF =>
    exact ⟨fun r => (r, failWith .err), fun s => (perform_of_reserved s _ rfl _).symm,
      fun _ _ h => by cases h⟩

/-! ### Runs of one port's micro-steps -/

theorem runFor_of_next (k : Nat) (s t : State) (h : step s = .next t) :
    runFor (k + 1) s = runFor k t := by
  rw [runFor, h]

theorem runFor_of_refused (k : Nat) (s : State) (r : Refusal) (h : step s = .refused r) :
    runFor (k + 1) s = .refused r := by
  rw [runFor, h]

/-- Further micro-steps of an idle port change nothing (log 5). -/
theorem runFor_micro_of_idle (k : Nat) (s : State) (p : Port) (h : s.idleOn p) :
    runFor k (s.withInputs (List.replicate k (.micro p))) = .next (s.withInputs []) := by
  induction k with
  | zero => rfl
  | succ k ih =>
    have hstep : step (s.withInputs (List.replicate (k + 1) (.micro p))) =
        .next (s.withInputs (List.replicate k (.micro p))) := by
      rw [step_micro _ p (List.replicate k (.micro p)) rfl]
      exact advance_of_idle _ p ⟨(withInputs_flight s p _).trans h.1, h.2⟩
    rw [runFor_of_next k _ _ hstep, ih]

theorem idleOn_of_responded (s : State) (p : Port) (b : Bool) (r : Planner) (rsp : Response)
    (hl : p = .P → s.fill = none) : ((s.setFlight p none).complete p b r rsp).idleOn p := by
  cases p with
  | P => exact ⟨rfl, hl⟩
  | C => exact ⟨rfl, nofun⟩

/-- A transaction in flight whose micro-steps come to a response within `k`, with nothing between them,
ends within `k` micro-steps of its port with those registers and that response. -/
theorem runFor_micro_of_flight (k : Nat) (s : State) (p : Port) (w : CmdWord) (m : Micro) (r : Planner)
    (rsp : Response) (hf : s.flight p = some ⟨w, m⟩) (hl : p = .P → s.fill = none)
    (hr : runMicro Config.platform k m s.planner = (r, some rsp)) :
    runFor k (s.withInputs (List.replicate k (.micro p))) =
      .next (((s.setFlight p none).complete p m.isInit r rsp).withInputs []) := by
  induction k generalizing s m with
  | zero => cases hr
  | succ k ih =>
    have hstep : step (s.withInputs (List.replicate (k + 1) (.micro p))) =
        .next ((s.stepFlight p ⟨w, m⟩).withInputs (List.replicate k (.micro p))) := by
      rw [step_micro _ p (List.replicate k (.micro p)) rfl, ← withInputs_stepFlight]
      exact advance_of_flight _ p _ ((withInputs_flight s p _).trans hf)
    rw [runFor_of_next k _ _ hstep]
    rcases hm : microStep Config.platform m s.planner with ⟨r', m' | rsp'⟩
    · have hinit : m'.isInit = m.isInit := by
        simp only [Micro.isInit, microStep_go_command _ m m' s.planner (by rw [hm])]
      rw [runMicro_go _ _ _ _ _ _ hm] at hr
      rw [stepFlight_go s p ⟨w, m⟩ m' r' hm,
        ih _ m' (by cases p <;> rfl) (by simpa using hl) (by simpa using hr), hinit]
      cases p <;> rfl
    · rw [runMicro_done _ _ _ _ _ _ hm] at hr
      cases hr
      rw [stepFlight_done s p ⟨w, m⟩ r rsp hm]
      exact runFor_micro_of_idle k _ p (idleOn_of_responded s p _ r rsp hl)

/-! ### The transaction as one whole -/

theorem idleOn_of_not_busy (s : State) (p : Port) (h : s.busy p = false) : s.idleOn p := by
  cases p with
  | P =>
    obtain ⟨hf, hl⟩ : s.flightP = none ∧ s.fill = none := by simpa [State.busy] using h
    exact ⟨hf, fun _ => hl⟩
  | C => exact ⟨by simpa [State.busy] using h, nofun⟩

/-- A word answered at once: the micro-steps after it find the port idle. -/
theorem runFor_micro_of_answered (k : Nat) (s : State) (p : Port) (rsp : Response)
    (hi : s.inputs = []) (hb : s.busy p = false) :
    runFor k ((s.answer p rsp).withInputs (List.replicate k (.micro p))) =
      .next (s.answer p rsp) := by
  have idle : (s.answer p rsp).idleOn p := by
    cases p <;> exact idleOn_of_not_busy s _ hb
  rw [runFor_micro_of_idle k _ p idle, withInputs_self _ _ (by simpa using hi)]

/-- A command launched and run by its micro-steps ends as its whole transaction does. -/
theorem runFor_micro_of_launched (k : Nat) (s : State) (p : Port) (w : CmdWord) (m : Micro)
    (r : Planner) (rsp : Response) (hi : s.inputs = []) (hb : s.busy p = false)
    (hr : runMicro Config.platform k m s.planner = (r, some rsp)) :
    runFor k ((s.launch p w m).withInputs (List.replicate k (.micro p))) =
      .next (s.complete p m.isInit r rsp) := by
  obtain ⟨hf, hl⟩ := idleOn_of_not_busy s p hb
  have landed : ((s.launch p w m).setFlight p none).complete p m.isInit r rsp =
      s.complete p m.isInit r rsp := by
    cases p <;> (rw [← hf]; rfl)
  rw [runFor_micro_of_flight k _ p w m r rsp (launch_flight_self s p w m) (by simpa using hl)
    (by simpa using hr), landed, withInputs_self _ _ (by simpa using hi)]

/-! ### A word presented, and the same word run by micro-steps -/

/-- `s` with `p` as the port that the word being executed was presented on. -/
def State.onPort (s : State) (p : Port) : State := { s with port := p }

theorem onPort_answer (s : State) (p q : Port) (rsp : Response) :
    { (s.onPort q).answer p rsp with port := s.port } = s.answer p rsp := by cases p <;> rfl

theorem onPort_complete (s : State) (p q : Port) (b : Bool) (r : Planner) (rsp : Response) :
    { (s.onPort q).complete p b r rsp with port := s.port } = s.complete p b r rsp := by
  cases p <;> rfl

@[simp] theorem onPort_admission (s : State) (p q : Port) (i : Instr) :
    (s.onPort q).admission p i = s.admission p i := by cases p <;> rfl

/-- The outcome with the model's field `port` put back to `q`. -/
def portBack (q : Port) : Host.Outcome State Fault Refusal → Host.Outcome State Fault Refusal
  | .next t => .next { t with port := q }
  | .fault f => .fault f
  | .refused r => .refused r

theorem startCommand_of_refuse (s : State) (p : Port) (w : CmdWord) (r : Refusal)
    (h : s.admission p (decode w) = .refuse r) : startCommand p w s = .refused r := by
  unfold startCommand
  cases hm : Micro.first (decode w) with
  | none =>
    rw [admission_of_reserved s p _ hm] at h
    split at h <;> cases h
    exact if_pos ‹_›
  | some m => simp only [h]

theorem startCommand_of_reject (s : State) (p : Port) (w : CmdWord)
    (h : s.admission p (decode w) = .reject) :
    startCommand p w s = .next (s.answer p (failWith .err)) := by
  unfold startCommand
  cases Micro.first (decode w) with
  | none => exact if_neg (by simp [(admission_reject s p _ h).1])
  | some m => simp only [h]

theorem startCommand_of_accept (s : State) (p : Port) (w : CmdWord)
    (h : s.admission p (decode w) = .accept) :
    ∃ m, Micro.first (decode w) = some m ∧ startCommand p w s = .next (s.launch p w m) := by
  unfold startCommand
  cases hm : Micro.first (decode w) with
  | none =>
    rw [admission_of_reserved s p _ hm] at h
    split at h <;> cases h
  | some m => exact ⟨m, rfl, by simp only [h]⟩

theorem step_start (s : State) (p : Port) (w : CmdWord) (rest : List Event) :
    step (s.withInputs (.start p w :: rest)) = startCommand p w (s.withInputs rest) := rfl

/-- A word started, and then 14 micro-steps of its port, come to what its command comes to as one whole. -/
theorem runFor_start_eq_exec (s : State) (p : Port) (w : CmdWord) (hi : s.inputs = []) :
    runFor 15 (s.withInputs (.start p w :: List.replicate 14 (.micro p))) =
      portBack s.port (exec (decode w) (s.onPort p)) := by
  obtain ⟨body, hexec, hmicro⟩ := exec_is_perform (decode w)
  rw [hexec]
  have start := step_start s p w (List.replicate 14 (.micro p))
  cases ha : s.admission p (decode w) with
  | refuse r =>
    rw [startCommand_of_refuse _ p w r (by simpa using ha)] at start
    rw [runFor_of_refused 14 _ r start,
      perform_of_refuse (s.onPort p) _ body r ((onPort_admission s p p _).trans ha)]
    rfl
  | reject =>
    rw [startCommand_of_reject _ p w (by simpa using ha), withInputs_answer] at start
    rw [runFor_of_next 14 _ _ start,
      runFor_micro_of_answered 14 s p _ hi (admission_reject s p _ ha).1,
      perform_of_reject (s.onPort p) _ body ((onPort_admission s p p _).trans ha)]
    exact congrArg _ (onPort_answer s p p _).symm
  | accept =>
    obtain ⟨m, hm, launched⟩ := startCommand_of_accept
      (s.withInputs (List.replicate 14 (.micro p))) p w (by simpa using ha)
    rw [launched, withInputs_launch] at start
    rw [runFor_of_next 14 _ _ start,
      runFor_micro_of_launched 14 s p w m _ _ hi (admission_accept s p _ ha).1
        (hmicro m s.planner hm), first_isInit _ m hm,
      perform_of_accept (s.onPort p) _ body ((onPort_admission s p p _).trans ha)]
    exact congrArg _ (onPort_complete s p p _ _ _).symm

/-- Settles O11, by the three admissions of the word: refused and rejected words leave the port idle, and
an accepted command's micro-steps come to its rule's registers and response. -/
theorem uninterruptedMicroStepsAreTheCommand :
    Obligations.UninterruptedMicroStepsAreTheCommand :=
  fun s p w hi => runFor_start_eq_exec s p w hi

end Sys2Proof.Machine
end

section
/-! SUPPORT. The statements of spec/10_state.md: what INIT and reset leave in the registers (R39), that the
reset and power-on states meet the invariants, and how far a step moves the cursors (R37 c). -/

namespace Sys2Proof.Machine

/-! ### The registers after INIT (10_state.md R39) -/

theorem init_eq_reset (cfg : Config) (r : Planner) :
    Planner.init cfg r = (Planner.reset cfg.cStart, okWith 0) := rfl

theorem reset_slot_free (c : Word) (i : SlotIx) : (Planner.reset c).nextN[i] = 0 := by
  revert i
  show ∀ i : SlotIx, (#v[0, 0, 0, 0] : Vector Word 4)[i] = 0
  decide

theorem reset_ring (c : Word) :
    Ring (Planner.reset c).head (Planner.reset c).tail (Planner.reset c).nextN :=
  ⟨0, by decide, rfl, fun k =>
    ⟨fun live => absurd (reset_slot_free c _) live, fun below => absurd below (Nat.not_lt_zero _)⟩⟩

theorem reset_isEmpty (c : Word) : (Planner.reset c).isEmpty = true :=
  (isEmpty_eq_true _).2 (reset_slot_free c _)

theorem reset_isFull (c : Word) : (Planner.reset c).isFull = false :=
  (isFull_eq_false _).2 (reset_slot_free c _)

theorem reset_motion (c : Word) : (Planner.reset c).motion = .cruise := if_pos rfl

theorem reset_flagRight (c : Word) : (Planner.reset c).flagRight :=
  (decide_eq_false (BitVec.lt_irrefl c)).symm

/-! ### INIT on a quiet machine (42_filler.md R120) -/

/-- Nothing in flight on either port, and no FILL call: INIT is accepted, before the first INIT too. -/
theorem admission_init_of_quiet (s : State) (h : s.quiet) : s.admission .P .init = .accept := by
  obtain ⟨hP, hC, hfill⟩ := h
  simp [State.admission, State.busy, acceptedOn, isInit, hP, hC, hfill]

theorem exec_init_of_quiet (s : State) (hp : s.port = .P) (h : s.quiet) :
    exec .init s =
      .next { s with
        planner := Planner.reset Config.platform.cStart, inited := true, rspP := some ⟨.ok, 0⟩ } := by
  have accepted : s.admission s.port .init = .accept := by
    rw [hp]; exact admission_init_of_quiet s h
  have performed := perform_of_accept s .init (Planner.init Config.platform) accepted
  rw [hp, init_eq_reset] at performed
  have nowInited : (s.inited || isInit .init) = true := Bool.or_true _
  rw [← nowInited]
  exact performed

/-- Settles O13: INIT is accepted on a quiet machine, and what it leaves is `Planner.reset`. -/
theorem initGivesTheResetValues : Obligations.InitGivesTheResetValues := fun s hp hq =>
  ⟨Planner.reset Config.platform.cStart, exec_init_of_quiet s hp hq, rfl,
    reset_isEmpty _, reset_isFull _, reset_motion _⟩

/-! ### The invariants of a quiet machine

With nothing in flight, no clause about a micro-step has anything to say: what is left of each invariant is
its clause about the registers once INIT has been done. -/

theorem microOn_of_quiet (s : State) (h : s.quiet) (p : Port) : s.microOn p = none := by
  obtain ⟨hP, hC, -⟩ := h
  cases p
  · exact congrArg (Option.map _) hP
  · exact congrArg (Option.map _) hC

theorem orderly_of_quiet (s : State) (h : s.quiet) : s.Orderly := by
  have noMicro := microOn_of_quiet s h
  obtain ⟨hP, hC, -⟩ := h
  exact {
    portP := by simp [noMicro]
    portC := by simp [noMicro]
    initAlone := fun _ => hC
    beforeInit := fun _ => ⟨hC, .inl hP⟩ }

theorem ringInv_of_quiet (s : State) (h : s.quiet)
    (ring : s.inited = true → Ring s.planner.head s.planner.tail s.planner.nextN) : s.RingInv := by
  have noMicro := microOn_of_quiet s h
  exact {
    toOrderly := orderly_of_quiet s h
    ring := fun hi _ => by simpa only [State.ringHead, State.ringTail, noMicro] using ring hi
    ringInInit := by simp only [noMicro]
    producer := by simp [noMicro]
    consumer := by simp [noMicro] }

theorem flagInv_of_quiet (s : State) (h : s.quiet)
    (flag : s.inited = true → s.planner.flagRight) : s.FlagInv := by
  have noMicro := microOn_of_quiet s h
  exact {
    toOrderly := orderly_of_quiet s h
    flag := fun hi _ => by simpa only [noMicro] using flag hi
    flagInInit := by simp only [noMicro] }

theorem floorInv_of_quiet (s : State) (h : s.quiet)
    (floor : s.inited = true → Config.platform.cMin ≤ s.planner.currC) : s.FloorInv := by
  have noMicro := microOn_of_quiet s h
  exact {
    toOrderly := orderly_of_quiet s h
    floor := floor
    floorInInit := by simp only [noMicro]
    floorInGet := by simp [noMicro] }

/-! ### The reset and power-on states (10_state.md R38, R39; log 3, 4) -/

theorem reset_quiet : State.reset.quiet := ⟨rfl, rfl, rfl⟩

theorem powerOn_quiet : State.powerOn.quiet := ⟨rfl, rfl, rfl⟩

theorem powerOn_not_inited : State.powerOn.inited ≠ true := nofun

theorem reset_rspInv : State.reset.RspInv := ⟨nofun, nofun⟩

theorem reset_fillInv : State.reset.FillInv where
  within := nofun
  running := nofun

theorem reset_fillWaits : State.reset.FillWaits := nofun

/-- Settles O38: both states are quiet, so each invariant rests on the registers after INIT alone, and
before the first INIT on nothing. -/
theorem resetMeetsTheInvariants : Obligations.ResetMeetsTheInvariants :=
  ⟨⟨ringInv_of_quiet _ reset_quiet fun _ => reset_ring _,
    flagInv_of_quiet _ reset_quiet fun _ => reset_flagRight _,
    floorInv_of_quiet _ reset_quiet fun _ => cMin_le_cStart _,
    reset_rspInv, reset_fillInv, reset_fillWaits⟩,
   ringInv_of_quiet _ powerOn_quiet fun hi => absurd hi powerOn_not_inited,
   flagInv_of_quiet _ powerOn_quiet fun hi => absurd hi powerOn_not_inited,
   floorInv_of_quiet _ powerOn_quiet fun hi => absurd hi powerOn_not_inited⟩

/-! ### What a step can do to the registers -/

@[simp] theorem stepFlight_planner (s : State) (p : Port) (f : Flight) :
    (s.stepFlight p f).planner = (microStep Config.platform f.micro s.planner).1 := by
  unfold State.stepFlight; split <;> simp

theorem stepFill_planner (s t : State) (l : FillLoop) (h : s.stepFill l = .next t) :
    t.planner = s.planner := by
  obtain ⟨d, -, ⟨-, -, -, rfl⟩ | ⟨-, -, rfl⟩ | ⟨steps, -, -, rfl⟩ | ⟨steps, -, -, rfl⟩⟩ :=
    stepFill_next s t l h <;> rfl

theorem startCommand_planner (p : Port) (w : CmdWord) (s t : State)
    (h : startCommand p w s = .next t) : t.planner = s.planner := by
  obtain ⟨-, rfl, -⟩ | ⟨m, -, -, rfl⟩ := startCommand_next p w s t h <;> simp

theorem advance_planner (p : Port) (s t : State) (h : advance p s = .next t) :
    (∃ f, s.flight p = some f ∧ t.planner = (microStep Config.platform f.micro s.planner).1) ∨
      t.planner = s.planner := by
  obtain ⟨f, hf, rfl⟩ | ⟨-, -, l, -, hl⟩ | ⟨-, rfl⟩ := advance_next p s t h
  · exact .inl ⟨f, hf, stepFlight_planner s p f⟩
  · exact .inr (stepFill_planner s t l hl)
  · exact .inr rfl

/-- Only a word presented whole and a micro-step of a transaction in flight can write a register. -/
theorem step_planner (s t : State) (h : step s = .next t) :
    (∃ p w rest, s.inputs = .present p w :: rest ∧ exec (decode w) (s.taking p rest) = .next t) ∨
    (∃ p m, s.microOn p = some m ∧ t.planner = (microStep Config.platform m s.planner).1) ∨
    t.planner = s.planner := by
  obtain presented | ⟨p, w, rest, -, hs⟩ | ⟨p, rest, -, ha⟩ | ⟨ref, rest, -, hf⟩ |
    ⟨n, v, rest, -, rfl⟩ | ⟨ref, n, v, rest, -, rfl⟩ := step_next s t h
  · exact .inl presented
  · have kept := startCommand_planner p w _ t hs
    exact .inr (.inr kept)
  · obtain ⟨f, hf, ht⟩ | ht := advance_planner p _ t ha
    · have taken : s.flight p = some f := (withInputs_flight s p rest).symm.trans hf
      exact .inr (.inl ⟨p, f.micro, by rw [State.microOn, taken]; rfl, ht⟩)
    · exact .inr (.inr ht)
  · obtain ⟨-, -, -, rfl⟩ := startFill_next ref _ t hf
    exact .inr (.inr rfl)
  · exact .inr (.inr rfl)
  · exact .inr (.inr rfl)

theorem acceptedOn_of_reserved (i : Instr) (p : Port) (h : Micro.first i = none) :
    acceptedOn i p = false := by
  cases i <;> cases h <;> rfl

/-- A whole command leaves the registers as they are, or its port accepts it and they are what its
micro-steps come to, one after another. -/
theorem exec_planner (i : Instr) (s t : State) (h : exec i s = .next t) :
    t.planner = s.planner ∨
    ∃ m, Micro.first i = some m ∧ acceptedOn i s.port = true ∧
      t.planner = (runMicro Config.platform 14 m s.planner).1 := by
  obtain ⟨body, hexec, hmicro⟩ := exec_is_perform i
  rw [hexec] at h
  obtain ⟨-, rfl⟩ | ⟨ha, rfl⟩ := perform_next s t i body h
  · exact .inl (by simp)
  · obtain ⟨-, accepted, -, -⟩ := admission_accept s s.port i ha
    cases hm : Micro.first i with
    | none => simp [acceptedOn_of_reserved i s.port hm] at accepted
    | some m => exact .inr ⟨m, rfl, accepted, by simp [hmicro m s.planner hm]⟩

/-! ### The cursors (10_state.md R37 c; 40_queue.md R92 to R94) -/

/-- From the registers `r` to `r'` each cursor stays or moves to the next slot, modulo 4. -/
def CursorsAdvance (r r' : Planner) : Prop :=
  (r'.head = r.head ∨ r'.head = r.head + 1) ∧ (r'.tail = r.tail ∨ r'.tail = r.tail + 1)

theorem cursorsAdvance_refl (r : Planner) : CursorsAdvance r r := ⟨.inl rfl, .inl rfl⟩

theorem put_cursorsAdvance (steps speed : Word) (r : Planner) :
    CursorsAdvance r (r.put steps speed).1 := by
  by_cases hs : steps = 0
  · rw [hs, put_of_zero]; exact cursorsAdvance_refl r
  by_cases hf : r.nextN[r.tail] = 0
  · rw [put_of_free _ _ _ hs hf]; exact ⟨.inl rfl, .inr rfl⟩
  · rw [put_of_full _ _ _ hs hf]; exact cursorsAdvance_refl r

theorem beginDda_cursorsAdvance (target : Word) (r : Planner) :
    CursorsAdvance r (r.beginDda target).1 := by
  by_cases hn : r.nextN[r.head] = 0
  · rw [begin_of_empty _ _ hn]; exact cursorsAdvance_refl r
  · rw [begin_of_live _ _ hn]; exact ⟨.inl rfl, .inl rfl⟩

theorem consumeStep_cursorsAdvance (r : Planner) (n : Word) : CursorsAdvance r (r.consumeStep n) := by
  by_cases hn : n = 1
  · rw [hn, consumeStep_of_last]
    exact ⟨.inr (by rw [loadNext_head]; rfl), .inl (by rw [loadNext_tail]; rfl)⟩
  · rw [consumeStep_of_more _ _ hn]; exact ⟨.inl rfl, .inl rfl⟩

theorem get_cursorsAdvance (cfg : Config) (clip : Bool) (r : Planner) :
    CursorsAdvance r (r.get cfg clip).1 := by
  by_cases hn : r.nextN[r.head] = 0
  · rw [get_of_empty _ _ _ hn]; exact cursorsAdvance_refl r
  · rw [get_of_live _ _ _ hn]; exact consumeStep_cursorsAdvance (r.updated cfg clip) _

theorem acceptedOn_init (p : Port) (h : acceptedOn .init p = true) : p = .P := by
  cases p with
  | P => rfl
  | C => cases h

theorem exec_cursorsAdvance (i : Instr) (s t : State) (hi : i = .init → s.port ≠ .P)
    (h : exec i s = .next t) : CursorsAdvance s.planner t.planner := by
  obtain ht | ⟨m, hm, accepted, ht⟩ := exec_planner i s t h <;> rw [ht]
  · exact cursorsAdvance_refl _
  cases i with
  | init => exact absurd (acceptedOn_init _ accepted) (hi rfl)
  | put steps speed => cases hm; rw [runMicro_put]; exact put_cursorsAdvance steps speed _
  | full => cases hm; rw [runMicro_full]; exact cursorsAdvance_refl _
  | empty => cases hm; rw [runMicro_empty]; exact cursorsAdvance_refl _
  | get clip => cases hm; rw [runMicro_get]; exact get_cursorsAdvance _ clip _
  | beginDda target => cases hm; rw [runMicro_beginDda]; exact beginDda_cursorsAdvance target _
  | reserved0 | reserved7 | reserved8toF => cases hm

/-- Outside INIT, only G9 writes `head`. -/
theorem microStep_head (cfg : Config) (m : Micro) (r : Planner) (hm : m.isInit = false) :
    (microStep cfg m r).1.head = r.head ∨
      ∃ l, m = .g9 l ∧ (microStep cfg m r).1.head = ringSucc l.h := by
  cases m
  case i2 => cases hm
  case g9 l => exact .inr ⟨l, rfl, rfl⟩
  case g7 l => left; simp only [microStep]; split <;> rfl
  all_goals exact .inl rfl

/-- Outside INIT, only P6 writes `tail`. -/
theorem microStep_tail (cfg : Config) (m : Micro) (r : Planner) (hm : m.isInit = false) :
    (microStep cfg m r).1.tail = r.tail ∨
      ∃ steps speed t p, m = .p6 steps speed t p ∧ (microStep cfg m r).1.tail = ringSucc t := by
  cases m
  case i2 => cases hm
  case p6 steps speed t p => exact .inr ⟨steps, speed, t, p, rfl, rfl⟩
  case g7 l => left; simp only [microStep]; split <;> rfl
  all_goals exact .inl rfl

/-- A micro-step in flight is INIT's only where the state says that INIT is in flight: port C accepts no
INIT (30_encoding.md R74). -/
theorem microOn_not_init (s : State) (hs : s.Orderly) (hi : s.initInFlight = false) (p : Port)
    (m : Micro) (hm : s.microOn p = some m) : m.isInit = false := by
  cases p with
  | P =>
    obtain ⟨f, hf, rfl⟩ := Option.map_eq_some_iff.mp hm
    have inFlight : s.flightP = some f := hf
    simpa [State.initInFlight, inFlight] using hi
  | C =>
    have onC := hs.portC m hm
    cases hc : m.command <;> simp [Micro.isInit, Micro.ofPort, hc] at onC ⊢

/-- The `h` that a GET before G9 holds is still `head`. -/
theorem ringInv_g9_head (s : State) (hs : s.RingInv) (p : Port) (l : GetLocals)
    (hm : s.microOn p = some (.g9 l)) : l.h = s.planner.head := by
  cases p with
  | P => cases hs.portP _ hm
  | C => exact hs.consumer _ hm

/-- The `t` that a PUT before P6 holds is still `tail`. -/
theorem ringInv_p6_tail (s : State) (hs : s.RingInv) (port : Port) (steps speed : Word) (t : SlotIx)
    (p : Word) (hm : s.microOn port = some (.p6 steps speed t p)) : t = s.planner.tail := by
  cases port with
  | P => exact hs.producer _ hm
  | C => cases hs.portC _ hm

theorem microStep_cursorsAdvance (cfg : Config) (s : State) (hs : s.RingInv)
    (hi : s.initInFlight = false) (p : Port) (m : Micro) (hm : s.microOn p = some m) :
    CursorsAdvance s.planner (microStep cfg m s.planner).1 := by
  have notInit := microOn_not_init s hs.toOrderly hi p m hm
  constructor
  · obtain same | ⟨l, rfl, moved⟩ := microStep_head cfg m s.planner notInit
    · exact .inl same
    · rw [moved, ringInv_g9_head s hs p l hm]; exact .inr rfl
  · obtain same | ⟨steps, speed, t, prev, rfl, moved⟩ := microStep_tail cfg m s.planner notInit
    · exact .inl same
    · rw [moved, ringInv_p6_tail s hs p steps speed t prev hm]; exact .inr rfl

/-- Settles O41: registers change by a whole command or by a micro-step, and the cursor that either writes
is the one it read. -/
theorem cursorsMoveOneSlotAtATime : Obligations.CursorsMoveOneSlotAtATime := by
  intro s t hs _ hflight hnoInit hstep
  obtain ⟨p, w, rest, hin, hexec⟩ | ⟨p, m, hm, ht⟩ | ht := step_planner s t hstep
  · refine exec_cursorsAdvance (decode w) (s.taking p rest) t (fun decoded onP => ?_) hexec
    rw [taking_port] at onP
    exact hnoInit w rest (onP ▸ hin) decoded
  · rw [ht]; exact microStep_cursorsAdvance _ s hs hflight p m hm
  · rw [ht]; exact cursorsAdvance_refl _

end Sys2Proof.Machine
end

section
/-! SUPPORT. The statements of spec/20_memory.md: the table lookup (R56), the number of micro-steps of a
command beside another agent (R66), and where FILL's PUT meets the queue (R62). -/

namespace Sys2Proof.Machine

/-! ### The table lookup (20_memory.md R56, R58) -/

theorem accelIndex_val (cfg : Config) (c : Word) :
    (accelIndex cfg c).val =
      min (c.toNat / 2 ^ cfg.accelPShift.val) (cfg.accelTableLen - 1) := by
  rw [← Nat.shiftRight_eq_div_pow]; rfl

theorem tableRead_eq_getD (cfg : Config) (k : Fin cfg.accelTableLen) :
    tableRead cfg k = cfg.accelP.getD k.val 0 :=
  (List.getD_eq_getElem _ 0 k.isLt).symm

/-- The upper half of a word is its quotient by 2^16. -/
theorem extract_upper_half (c : Word) : (c.extractLsb' 16 16).toNat = c.toNat / 2 ^ 16 := by
  have half : c.toNat / 2 ^ 16 < 2 ^ 16 := by omega
  rw [BitVec.extractLsb'_toNat, Nat.shiftRight_eq_div_pow, Nat.mod_eq_of_lt half]

/-- Settles O31: the index is the shifted value brought to the last index, and inside the table the bound
does not matter. -/
theorem lookupClampsItsIndex : Obligations.LookupClampsItsIndex := by
  refine fun cfg c => ⟨?_, fun shift inside => ?_⟩
  · rw [← accelIndex_val]; exact tableRead_eq_getD cfg _
  · have shifted : cfg.accelPShift.val = 16 := by rw [shift]; rfl
    rw [accelIndex_val, shifted, extract_upper_half]
    exact Nat.min_eq_left (Nat.le_sub_one_of_lt inside)

/-! ### How many micro-steps are left (20_memory.md R66, 70_reset_and_hazards.md R193) -/

/-- The most micro-steps that a command at the micro-step still takes, this one counted: those to the end of
its longest way (40_queue.md R90, R91; 41_velocity_engine.md R100; 42_filler.md R120, R124, R126). -/
def Micro.stepsLeft : Micro → Nat
  | .i5 | .p8 .. | .e3 .. | .f3 .. | .b5 .. | .g14 .. => 1
  | .i4 | .p7 .. | .e2 _ | .f2 _ | .b4 .. | .g13 .. => 2
  | .i3 | .p6 .. | .e1 | .f1 | .b3 .. | .g12 .. => 3
  | .i2 | .p5 .. | .b2 .. | .g11 .. => 4
  | .i1 | .p4 .. | .b1 _ | .g10 .. => 5
  | .p3 .. | .g9 _ => 6
  | .p2 .. | .g8 _ => 7
  | .p1 .. | .g7 _ => 8
  | .p0 .. | .g6 _ => 9
  | .g5 _ => 10
  | .g4 .. => 11
  | .g3 .. => 12
  | .g2 .. => 13
  | .g1 _ => 14

theorem stepsLeft_first (i : Instr) (m : Micro) (h : Micro.first i = some m) :
    m.stepsLeft = microBound i := by
  cases i <;> cases h <;> rfl

theorem stepsLeft_pos (m : Micro) : 0 < m.stepsLeft := by
  cases m <;> exact Nat.succ_pos _

/-- A micro-step that goes on comes nearer to the response, whatever the registers hold: the last of a
command responds, a test goes on to a later one, and each other is followed by the next. -/
theorem microStep_go_stepsLeft (cfg : Config) (m m' : Micro) (r : Planner)
    (h : (microStep cfg m r).2 = .go m') : m'.stepsLeft < m.stepsLeft := by
  cases m
  case i5 | p8 | e3 | f3 | b5 | g14 => cases h
  case p0 | p2 | b2 | g2 | g7 | g10 =>
    simp only [microStep] at h
    split at h <;> cases h <;> simp [Micro.stepsLeft]
  all_goals cases h; exact Nat.lt_succ_self _

/-- A command driven for as many micro-steps as it has left has responded, whatever stands in the registers
before each of them. -/
theorem driven_responds (cfg : Config) (env : Nat → Planner) (k j : Nat) (m : Micro)
    (h : m.stepsLeft ≤ k) : ∃ rsp, driven cfg env k j m = .done rsp := by
  induction k generalizing j m with
  | zero => exact absurd (stepsLeft_pos m) (Nat.not_lt.mpr h)
  | succ k ih =>
    rw [driven]
    cases hm : (microStep cfg m (env j)).2 with
    | go m' =>
      have nearer := microStep_go_stepsLeft cfg m m' (env j) hm
      exact ih (j + 1) m' (by omega)
    | done rsp => exact ⟨rsp, rfl⟩

/-- Settles O12: a command begins with as many micro-steps left as its bound, and each takes one off. -/
theorem everyCommandEndsWhateverTheOtherAgentDoes :
    Obligations.EveryCommandEndsWhateverTheOtherAgentDoes := by
  intro cfg env i m hm
  obtain ⟨rsp, responds⟩ :=
    driven_responds cfg env (microBound i) 0 m (stepsLeft_first i m hm).le
  exact ⟨microBound i, rsp, Nat.le_refl _, responds⟩

/-! ### A PUT in flight at its P2 (20_memory.md R62, 42_filler.md R126) -/

theorem step_p2_live (s : State) (w : CmdWord) (n v : Word) (t : SlotIx) (rest : List Event)
    (hi : s.inputs = .micro .P :: rest) (hf : s.flightP = some ⟨w, .p2 n v t⟩)
    (live : s.planner.nextN[t] ≠ 0) :
    step s = .next { s with inputs := rest, flightP := none, rspP := some ⟨.full, 0⟩ } := by
  rw [aMicroStepIsTakenOnItsPort s .P _ rest hi hf, microStep_p2_live _ _ _ _ _ live]
  have notInit : (s.inited || (Micro.p2 n v t).isInit) = s.inited := Bool.or_false _
  simp only [notInit]
  rfl

theorem step_p2_free (s : State) (w : CmdWord) (n v : Word) (t : SlotIx) (rest : List Event)
    (hi : s.inputs = .micro .P :: rest) (hf : s.flightP = some ⟨w, .p2 n v t⟩)
    (free : s.planner.nextN[t] = 0) :
    step s = .next { s with inputs := rest, flightP := some ⟨w, .p3 n v t⟩ } := by
  rw [aMicroStepIsTakenOnItsPort s .P _ rest hi hf, microStep_p2_free _ _ _ _ _ free]
  rfl

/-! ### FILL returns on a refused PUT (42_filler.md R128 L4, L7) -/

theorem advance_of_fill (s : State) (l : FillLoop) (hf : s.flightP = none) (hl : s.fill = some l) :
    advance .P s = s.stepFill l := by
  simp only [advance, flight_P, hf, State.resume, hl]

theorem stepFill_of_refused (s : State) (l : FillLoop) (d : Descriptor) (n : Word)
    (hd : s.descriptor l.ref = some d) (ha : l.asked = some n)
    (refused : s.rspP.any (·.status == .ok) = false) : s.stepFill l = .next (s.fillReturn l) := by
  simp only [State.stepFill, hd, ha, refused, Bool.false_eq_true, if_false]

/-- With its PUT answered and not `OK`, a FILL call returns in the next step of port P. -/
theorem step_fill_refused (s : State) (l : FillLoop) (d : Descriptor) (n : Word) (rest : List Event)
    (hi : s.inputs = .micro .P :: rest) (hf : s.flightP = none) (hl : s.fill = some l)
    (hd : s.descriptor l.ref = some d) (ha : l.asked = some n)
    (refused : s.rspP.any (·.status == .ok) = false) :
    step s = .next ((s.withInputs rest).fillReturn l) := by
  rw [step_micro s .P rest hi, advance_of_fill (s.withInputs rest) l hf hl]
  exact stepFill_of_refused (s.withInputs rest) l d n hd ha refused

/-! ### A whole GET beside the producer (41_velocity_engine.md R106, 20_memory.md R62) -/

/-- The last step of the head segment frees the head slot and no other. -/
theorem get_of_last_nextN (cfg : Config) (clip : Bool) (r : Planner) (last : r.nextN[r.head] = 1) :
    (r.get cfg clip).1.nextN = r.nextN.set r.head 0 := by
  have live : r.nextN[r.head] ≠ 0 := by rw [last]; decide
  rw [get_of_live cfg clip r live, last, consumeStep_of_last]
  simp

theorem decode_encode_get (clip : Bool) : decode (encode (.get clip)) = .get clip := by
  cases clip <;> decide

theorem step_present (s : State) (p : Port) (w : CmdWord) (rest : List Event)
    (hi : s.inputs = .present p w :: rest) : step s = exec (decode w) (s.taking p rest) := by
  unfold step; rw [hi]

/-- A GET presented whole on a ready port C is performed on the registers and answered there. -/
theorem step_present_get (s : State) (clip : Bool) (rest : List Event)
    (hi : s.inputs = .present .C (encode (.get clip)) :: rest) (ready : s.readyC) :
    step s = .next ((s.taking .C rest).complete .C false
      (s.planner.get Config.platform clip).1 (s.planner.get Config.platform clip).2) := by
  obtain ⟨inited, idle, noInit⟩ := ready
  have free : (s.taking .C rest).busy .C = false := congrArg Option.isSome idle
  rw [step_present s .C _ rest hi, decode_encode_get]
  exact perform_of_accept _ _ _ (admission_of_ready _ .C (.get clip) free rfl rfl inited noInit)

/-- Settles O60: a live slot is refused at P2 and the call returns in its next step; a free one lets the PUT
go on, also where the GET right before it has freed the slot. -/
theorem fillsPutIsDecidedAtItsP2 : Obligations.FillsPutIsDecidedAtItsP2 := by
  intro s l d w n v t rest hl ha hd hf
  refine ⟨fun hi live => ?_, fun hi free => step_p2_free s w n v t rest hi hf free,
    fun clip hi inited idleC atHead last => ?_⟩
  · rw [runFor_of_next 1 _ _ (step_p2_live s w n v t (.micro .P :: rest) hi hf live)]
    exact runFor_of_next 0 _ _ (step_fill_refused _ l d n rest rfl rfl hl hd ha rfl)
  · subst atHead
    have noInit : s.initInFlight = false := by rw [State.initInFlight, hf]; rfl
    have freed := get_of_last_nextN Config.platform clip s.planner last
    have got := step_present_get s clip (.micro .P :: rest) hi ⟨inited, idleC, noInit⟩
    rw [runFor_of_next 1 _ _ got]
    refine ⟨_, runFor_of_next 0 _ _ (step_p2_free _ w n v s.planner.head rest rfl hf ?_),
      rfl, rfl, rfl, freed⟩
    rw [complete_planner, freed, slot_set_self]

end Sys2Proof.Machine
end

section
/-! SUPPORT. The statements of spec/30_encoding.md: the decoder against the encoder (R71 to R74, R81), the
words no port takes (R73, R75, R78), and the data of a response that is not `OK` (R76). -/

namespace Sys2Proof.Machine

open Sys2Proof.Laws

/-! ### The decoder, code by code (30_encoding.md R74) -/

theorem decode_of_op0 (w : CmdWord) (h : opField w = 0) : decode w = .reserved0 := by
  unfold decode; rw [h]; rfl

theorem decode_of_op1 (w : CmdWord) (h : opField w = 1) : decode w = .init := by
  unfold decode; rw [h]; rfl

theorem decode_of_op2 (w : CmdWord) (h : opField w = 2) :
    decode w = .put (aField w) (bField w) := by
  unfold decode; rw [h]; rfl

theorem decode_of_op3 (w : CmdWord) (h : opField w = 3) : decode w = .full := by
  unfold decode; rw [h]; rfl

theorem decode_of_op4 (w : CmdWord) (h : opField w = 4) : decode w = .empty := by
  unfold decode; rw [h]; rfl

theorem decode_of_op5 (w : CmdWord) (h : opField w = 5) :
    decode w = .get ((bField w).getLsbD 0) := by
  unfold decode; rw [h]; rfl

theorem decode_of_op6 (w : CmdWord) (h : opField w = 6) : decode w = .beginDda (bField w) := by
  unfold decode; rw [h]; rfl

theorem decode_of_op7 (w : CmdWord) (h : opField w = 7) : decode w = .reserved7 := by
  unfold decode; rw [h]; rfl

theorem decode_of_op8toF (w : CmdWord) (h : 8 ≤ (opField w).toNat) :
    decode w = .reserved8toF (opField w) := by
  unfold decode
  split
  case h_9 => rfl
  all_goals omega

/-- The operation codes, by the rows of the opcode table. -/
theorem op_cases (op : BitVec 4) :
    op = 0 ∨ op = 1 ∨ op = 2 ∨ op = 3 ∨ op = 4 ∨ op = 5 ∨ op = 6 ∨ op = 7 ∨ 8 ≤ op.toNat := by
  revert op; decide

/-! ### From commands to words and back (30_encoding.md R71, R72, R81) -/

/-- Settles O1: a command's word carries its row's code, so it decodes by that row, and the fields it was
put together from give the operands back. -/
theorem decodeEncodeAgree : Obligations.DecodeEncodeAgree := by
  intro i wf
  cases i with
  | init => exact decode_of_op1 _ OpcodeField.init
  | put steps speed =>
    rw [decode_of_op2 _ (OpcodeField.put steps speed), encode, aField_wordOf, bField_wordOf]
  | full => exact decode_of_op3 _ OpcodeField.full
  | empty => exact decode_of_op4 _ OpcodeField.empty
  | get clip => exact decode_encode_get clip
  | beginDda target => rw [decode_of_op6 _ (OpcodeField.beginDda target), encode, bField_wordOf]
  | reserved0 => exact decode_of_op0 _ OpcodeField.reserved0
  | reserved7 => exact decode_of_op7 _ OpcodeField.reserved7
  | reserved8toF op =>
    have code : opField (encode (.reserved8toF op)) = op := OpcodeField.reserved8toF op
    have high : 8 ≤ op.toNat := of_decide_eq_true wf
    rw [decode_of_op8toF _ (code.symm ▸ high), code]

theorem wordOf_fields (w : CmdWord) : wordOf (opField w) (aField w) (bField w) = w := by
  unfold wordOf opField aField bField
  rw [BitVec.extractLsb'_append_extractLsb'_eq_extractLsb' (by rfl),
    BitVec.extractLsb'_append_extractLsb'_eq_extractLsb' (by rfl)]
  exact BitVec.extractLsb'_eq_self

/-- The word of a GET holds bit 0 of the word it was decoded from. -/
theorem encode_get_bit0 (b : Word) : encode (.get (b.getLsbD 0)) = wordOf 5 0 (b &&& 1) := by
  have bit : (if b.getLsbD 0 then 1 else 0) = b &&& 1 := by
    refine .trans ?_ BitVec.and_one_eq_setWidth_ofBool_getLsbD.symm
    cases b.getLsbD 0 <;> rfl
  rw [encode, bit]

/-- Settles O2: the word decodes by its code's row, and only PUT, GET and BEGIN have operands to write back. -/
theorem decodingKeepsEveryOperandBit : Obligations.DecodingKeepsEveryOperandBit := by
  intro w
  refine ⟨(wordOf_fields w).symm, ?_⟩
  rcases op_cases (opField w) with h | h | h | h | h | h | h | h | h
  · rw [decode_of_op0 w h, h]; rfl
  · rw [decode_of_op1 w h, h]; rfl
  · rw [decode_of_op2 w h, h]; rfl
  · rw [decode_of_op3 w h, h]; rfl
  · rw [decode_of_op4 w h, h]; rfl
  · rw [decode_of_op5 w h, h, encode_get_bit0]; rfl
  · rw [decode_of_op6 w h, h]; rfl
  · rw [decode_of_op7 w h, h]; rfl
  · have other (op : BitVec 4) (low : op.toNat < 8) : opField w ≠ op :=
      fun e => Nat.not_lt.2 (e ▸ h) low
    have noOperand := not_or.2 ⟨other 2 (by decide), other 6 (by decide)⟩
    rw [decode_of_op8toF w h, encode, if_neg (other 2 (by decide)), if_neg noOperand,
      if_neg (other 5 (by decide))]

/-- Settles O3: each printed word has its row's code, and the row's operands are read off its fields. -/
theorem specWordsDecode : Obligations.SpecWordsDecode :=
  ⟨decode_of_op2 _ rfl, decode_of_op5 _ rfl, decode_of_op5 _ rfl, decode_of_op6 _ rfl,
    decode_of_op8toF _ (by decide)⟩

/-- A reserved code decodes to a command without micro-steps (R78). -/
theorem first_of_reserved_op (w : CmdWord) (h : opField w = 0 ∨ 7 ≤ (opField w).toNat) :
    Micro.first (decode w) = none := by
  obtain zero | seven := h
  · rw [decode_of_op0 w zero]; rfl
  · obtain high | low := Nat.lt_or_eq_of_le seven
    · rw [decode_of_op8toF w high]; rfl
    · rw [decode_of_op7 w (BitVec.eq_of_toNat_eq low.symm)]; rfl

/-! ### A word that its port does not take (30_encoding.md R73, R75, R78) -/

theorem busy_of_idleOn (s : State) (p : Port) (h : s.idleOn p) : s.busy p = false := by
  obtain ⟨idle, noFill⟩ := h
  cases p with
  | P => simp only [State.busy, show s.flightP = none from idle, noFill rfl]; rfl
  | C => exact congrArg Option.isSome idle

theorem admission_of_not_accepted (s : State) (p : Port) (i : Instr) (free : s.busy p = false)
    (h : acceptedOn i p = false) : s.admission p i = .reject := by
  simp [State.admission, free, h]

/-- A command that its free port does not take is answered `ERR` with data 0, and nothing else is
changed. -/
theorem exec_of_not_accepted (s : State) (p : Port) (i : Instr) (hp : s.port = p)
    (free : s.busy p = false) (h : acceptedOn i p = false) :
    exec i s = .next (s.answer p (failWith .err)) := by
  subst hp
  obtain ⟨body, hexec, -⟩ := exec_is_perform i
  rw [hexec, perform_of_reject s i body (admission_of_not_accepted s s.port i free h)]

@[simp] theorem taking_busy (s : State) (p q : Port) (rest : List Event) :
    (s.taking p rest).busy q = s.busy q := by cases q <;> rfl

/-- A word presented whole that its free port does not take. -/
theorem step_present_not_accepted (s : State) (p : Port) (w : CmdWord) (rest : List Event)
    (hi : s.inputs = .present p w :: rest) (free : s.busy p = false)
    (h : acceptedOn (decode w) p = false) :
    step s = .next ((s.taking p rest).answer p (failWith .err)) := by
  rw [step_present s p w rest hi]
  exact exec_of_not_accepted _ p _ rfl ((taking_busy s p p rest).trans free) h

/-- A word to be run micro-step by micro-step that its free port does not take. -/
theorem step_start_not_accepted (s : State) (p : Port) (w : CmdWord) (rest : List Event)
    (hi : s.inputs = .start p w :: rest) (free : s.busy p = false)
    (h : acceptedOn (decode w) p = false) :
    step s = .next ((s.withInputs rest).answer p (failWith .err)) := by
  rw [← withInputs_self s _ hi, step_start]
  exact startCommand_of_reject _ p w
    ((withInputs_admission s p _ rest).trans (admission_of_not_accepted s p _ free h))

/-- Settles O4: no port takes a reserved code. -/
theorem reservedCodesAnswerErr : Obligations.ReservedCodesAnswerErr := by
  intro s p free
  refine ⟨fun w reserved => ?_, fun hp => ⟨?_, ?_, fun op => ?_⟩⟩
  · have refused := acceptedOn_of_reserved (decode w) p (first_of_reserved_op w reserved)
    exact ⟨fun rest hi => step_present_not_accepted s p w rest hi free refused,
      fun rest hi => step_start_not_accepted s p w rest hi free refused⟩
  all_goals exact exec_of_not_accepted s p _ hp free (acceptedOn_of_reserved _ p rfl)

/-- Settles O5: INIT and PUT are not port C's, GET and BEGIN not port P's. -/
theorem wrongPortAnswersErr : Obligations.WrongPortAnswersErr := by
  intro s
  constructor
  · intro hp idle
    have free := busy_of_idleOn s .C ⟨idle, nofun⟩
    exact ⟨exec_of_not_accepted s .C .init hp free rfl,
      fun steps speed => exec_of_not_accepted s .C (.put steps speed) hp free rfl⟩
  · intro hp idle noFill
    have free := busy_of_idleOn s .P ⟨idle, fun _ => noFill⟩
    exact ⟨fun clip => exec_of_not_accepted s .P (.get clip) hp free rfl,
      fun target => exec_of_not_accepted s .P (.beginDda target) hp free rfl⟩

/-- Settles O8: what is taken off the inputs is what `State.taking` says. -/
theorem stepRunsTheDecodedCommand : Obligations.StepRunsTheDecodedCommand :=
  step_present

/-! ### What a response carries (30_encoding.md R76) -/

theorem okWith_clean (data : Word) : (okWith data).clean := fun h => absurd rfl h

theorem failWith_clean (st : Status) : (failWith st).clean := fun _ => rfl

/-- A micro-step that responds: the last of a command with `OK`, a test that fails with data 0. -/
theorem microStep_done_clean (cfg : Config) (m : Micro) (r : Planner) (rsp : Response)
    (h : (microStep cfg m r).2 = .done rsp) : rsp.clean := by
  cases m
  case i5 | p8 | e3 | f3 | b5 | g14 => cases h; exact okWith_clean _
  case p0 | p2 | b2 | g2 | g7 | g10 =>
    simp only [microStep] at h
    split at h <;> cases h <;> exact failWith_clean _
  all_goals cases h

theorem runMicro_clean (cfg : Config) (k : Nat) (m : Micro) (r : Planner) (rsp : Response)
    (h : (runMicro cfg k m r).2 = some rsp) : rsp.clean := by
  induction k generalizing m r with
  | zero => cases h
  | succ k ih =>
    rw [runMicro] at h
    cases hm : (microStep cfg m r).2 with
    | go m' => rw [hm] at h; exact ih m' _ h
    | done rsp' => rw [hm] at h; cases h; exact microStep_done_clean cfg m r rsp hm

/-! ### Each update of the responses keeps them clean -/

theorem setRsp_rspInv (s : State) (p : Port) (x : Option Response) (hs : s.RspInv)
    (clean : ∀ r, x = some r → r.clean) : (s.setRsp p x).RspInv := by
  obtain ⟨hP, hC⟩ := hs
  cases p with
  | P => exact ⟨clean, hC⟩
  | C => exact ⟨hP, clean⟩

theorem answer_rspInv (s : State) (p : Port) (rsp : Response) (hs : s.RspInv) (clean : rsp.clean) :
    (s.answer p rsp).RspInv :=
  setRsp_rspInv s p (some rsp) hs fun _ h => Option.some.inj h ▸ clean

theorem complete_rspInv (s : State) (p : Port) (b : Bool) (r : Planner) (rsp : Response)
    (hs : s.RspInv) (clean : rsp.clean) : (s.complete p b r rsp).RspInv :=
  answer_rspInv _ p rsp hs clean

theorem setFlight_rspInv (s : State) (p : Port) (f : Option Flight) (hs : s.RspInv) :
    (s.setFlight p f).RspInv := by
  cases p <;> exact hs

theorem launch_rspInv (s : State) (p : Port) (w : CmdWord) (m : Micro) (hs : s.RspInv) :
    (s.launch p w m).RspInv :=
  setRsp_rspInv _ p none (setFlight_rspInv s p _ hs) nofun

/-! ### Every step keeps the responses clean -/

/-- A whole command is answered `ERR` on its port, or it is completed there with the registers and the
response that its micro-steps come to, one after another. -/
theorem exec_next (i : Instr) (s t : State) (h : exec i s = .next t) :
    t = s.answer s.port (failWith .err) ∨
    ∃ m r rsp, Micro.first i = some m ∧
      runMicro Config.platform 14 m s.planner = (r, some rsp) ∧
      t = s.complete s.port (isInit i) r rsp := by
  obtain ⟨body, hexec, hmicro⟩ := exec_is_perform i
  rw [hexec] at h
  obtain ⟨-, rejected⟩ | ⟨ha, performed⟩ := perform_next s t i body h
  · exact .inl rejected
  · obtain ⟨-, accepted, -, -⟩ := admission_accept s s.port i ha
    cases hm : Micro.first i with
    | none => simp [acceptedOn_of_reserved i s.port hm] at accepted
    | some m => exact .inr ⟨m, _, _, rfl, hmicro m s.planner hm, performed⟩

theorem exec_rspInv (i : Instr) (s t : State) (hs : s.RspInv) (h : exec i s = .next t) :
    t.RspInv := by
  obtain rfl | ⟨m, r, rsp, -, run, rfl⟩ := exec_next i s t h
  · exact answer_rspInv s _ _ hs (failWith_clean .err)
  · exact complete_rspInv s _ _ r rsp hs
      (runMicro_clean _ 14 m s.planner rsp (congrArg Prod.snd run))

theorem startCommand_rspInv (p : Port) (w : CmdWord) (s t : State) (hs : s.RspInv)
    (h : startCommand p w s = .next t) : t.RspInv := by
  obtain ⟨-, rfl, -⟩ | ⟨m, -, -, rfl⟩ := startCommand_next p w s t h
  · exact answer_rspInv s p _ hs (failWith_clean .err)
  · exact launch_rspInv s p w m hs

theorem stepFlight_rspInv (s : State) (p : Port) (f : Flight) (hs : s.RspInv) :
    (s.stepFlight p f).RspInv := by
  rcases hm : microStep Config.platform f.micro s.planner with ⟨r, m | rsp⟩
  · rw [stepFlight_go s p f m r hm]
    exact setFlight_rspInv { s with planner := r } p _ hs
  · rw [stepFlight_done s p f r rsp hm]
    exact complete_rspInv _ p _ r rsp (setFlight_rspInv s p none hs)
      (microStep_done_clean _ f.micro s.planner rsp (congrArg Prod.snd hm))

theorem stepFill_rspInv (s t : State) (l : FillLoop) (hs : s.RspInv) (h : s.stepFill l = .next t) :
    t.RspInv := by
  obtain ⟨d, -, ⟨-, -, -, rfl⟩ | ⟨-, -, rfl⟩ | ⟨steps, -, -, rfl⟩ | ⟨steps, -, -, rfl⟩⟩ :=
    stepFill_next s t l h
  case inl => exact launch_rspInv _ .P _ _ hs
  all_goals exact hs

theorem advance_rspInv (p : Port) (s t : State) (hs : s.RspInv) (h : advance p s = .next t) :
    t.RspInv := by
  obtain ⟨f, -, rfl⟩ | ⟨-, -, l, -, hl⟩ | ⟨-, rfl⟩ := advance_next p s t h
  · exact stepFlight_rspInv s p f hs
  · exact stepFill_rspInv s t l hs hl
  · exact hs

/-- Settles O6: a step puts on a port only what a micro-step answers, or `ERR` with data 0. -/
theorem failureResponsesCarryZero : Obligations.FailureResponsesCarryZero := by
  intro s t hs h
  obtain ⟨p, w, rest, -, he⟩ | ⟨p, w, rest, -, hw⟩ | ⟨p, rest, -, ha⟩ | ⟨ref, rest, -, hf⟩ |
    ⟨n, v, rest, -, rfl⟩ | ⟨ref, n, v, rest, -, rfl⟩ := step_next s t h
  · exact exec_rspInv _ (s.taking p rest) t hs he
  · exact startCommand_rspInv p w (s.withInputs rest) t hs hw
  · exact advance_rspInv p (s.withInputs rest) t hs ha
  · obtain ⟨-, -, -, rfl⟩ := startFill_next ref _ t hf
    exact hs
  · exact hs
  · exact hs

end Sys2Proof.Machine
end

section
/-! SUPPORT. The statements of spec/40_queue.md: the two commands that only read the queue, EMPTY (R90) and
FULL (R91), as whole transactions on either port. -/

namespace Sys2Proof.Machine

/-! ### What a ready port takes (30_encoding.md R75, 70_reset_and_hazards.md R184, R186, R187) -/

theorem inited_free_noInit_of_ready (s : State) (h : s.ready) :
    s.inited = true ∧ s.busy s.port = false ∧ s.initInFlight = false := by
  unfold State.ready at h
  cases hp : s.port with
  | P =>
    rw [hp] at h
    obtain ⟨inited, idle, noFill⟩ := h
    have noInit : s.initInFlight = false := by rw [State.initInFlight, idle]; rfl
    exact ⟨inited, busy_of_idleOn s .P ⟨idle, fun _ => noFill⟩, noInit⟩
  | C =>
    rw [hp] at h
    obtain ⟨inited, idle, noInit⟩ := h
    exact ⟨inited, busy_of_idleOn s .C ⟨idle, nofun⟩, noInit⟩

theorem perform_of_ready (s : State) (i : Instr) (body : Planner → Planner × Response) (h : s.ready)
    (accepted : acceptedOn i s.port = true) (notInit : isInit i = false) :
    s.perform i body =
      .next (s.complete s.port false (body s.planner).1 (body s.planner).2) := by
  obtain ⟨inited, free, noInit⟩ := inited_free_noInit_of_ready s h
  rw [perform_of_accept s i body (admission_of_ready s s.port i free accepted notInit inited noInit),
    notInit]

/-! ### Commands that only answer -/

theorem complete_same_registers (s : State) (p : Port) (rsp : Response) :
    s.complete p false s.planner rsp = s.setRsp p (some rsp) := by
  rw [State.complete, Bool.or_false]; rfl

/-- A command that writes no register, on a ready port: its response, and nothing else. -/
theorem perform_of_ready_readOnly (s : State) (i : Instr) (answer : Planner → Response) (h : s.ready)
    (accepted : acceptedOn i s.port = true) (notInit : isInit i = false) :
    s.perform i (fun r => (r, answer r)) = .next (s.setRsp s.port (some (answer s.planner))) := by
  rw [perform_of_ready s i _ h accepted notInit, complete_same_registers]

/-- The answer of a predicate command, by the proposition its predicate decides (30_encoding.md R77). -/
theorem bitData_of_iff (b : Bool) (P : Prop) [Decidable P] (h : b = true ↔ P) :
    bitData b = if P then 1 else 0 :=
  if_congr h rfl rfl

/-! ### EMPTY and FULL (40_queue.md R90, R91) -/

/-- Settles O19: EMPTY writes no register, and its predicate is the head slot's count being 0. -/
theorem emptyReportsTheHeadSlot : Obligations.EmptyReportsTheHeadSlot := by
  intro s h
  rw [← bitData_of_iff _ _ (isEmpty_eq_true s.planner)]
  exact perform_of_ready_readOnly s .empty (fun r => okWith (bitData r.isEmpty)) h rfl rfl

/-- Settles O20: FULL writes no register, and its predicate is the tail slot's count not being 0. -/
theorem fullReportsTheTailSlot : Obligations.FullReportsTheTailSlot := by
  intro s h
  rw [← bitData_of_iff _ _ (isFull_eq_true s.planner)]
  exact perform_of_ready_readOnly s .full (fun r => okWith (bitData r.isFull)) h rfl rfl

end Sys2Proof.Machine
end

section
/-! SUPPORT. The statements of spec/41_velocity_engine.md: the velocity update over the integers (R103, R104,
R109, R110), and GET as a whole transaction on a ready port C, one case of its step count at a time (R100 to
R108). -/

namespace Sys2Proof.Machine

/-! ### The parts of the update as numbers (41_velocity_engine.md R110, R111 a to c) -/

/-- Words are unsigned, so the floor is a maximum of numbers. -/
theorem raiseTo_toNat (lo r : Word) : (raiseTo lo r).toNat = max r.toNat lo.toNat := by
  unfold raiseTo
  split <;> bv_omega

theorem raiseTo_of_le (lo r : Word) (h : lo ≤ r) : raiseTo lo r = r :=
  if_neg (BitVec.not_lt.mpr h)

theorem saturateHigh_toNat (n : Nat) : (saturateHigh n).toNat = min n (2 ^ 32 - 1) := by
  have fits : min n (2 ^ 32 - 1) < 2 ^ 32 := by omega
  rw [saturateHigh, BitVec.toNat_ofNat, Nat.mod_eq_of_lt fits]

/-- A difference of words is below 2^32, so only 0 bounds it. -/
theorem saturateLow_toNat (d : Int) (h : d < 2 ^ 32) : ((saturateLow d).toNat : Int) = max d 0 := by
  have fits : max d 0 % (2 ^ 32 : Nat) = max d 0 := by omega
  rw [saturateLow, BitVec.toNat_ofInt, fits]
  omega

/-! ### The update in its three cases (41_velocity_engine.md R103) -/

theorem velocityUpdate_at_target (lo c a : Word) (dir clip : Bool) :
    velocityUpdate lo c c dir a clip = raiseTo lo c := by
  rw [velocityUpdate, if_pos rfl]

theorem velocityUpdate_up (lo c e a : Word) (clip : Bool) (h : c ≠ e) :
    ((velocityUpdate lo c e true a clip).toNat : Int) =
      max (if clip = true ∧ (c.toNat : Int) + a.toNat ≥ e.toNat then (e.toNat : Int)
           else min ((c.toNat : Int) + a.toNat) (2 ^ 32 - 1)) lo.toNat := by
  have reaches : (c.toNat : Int) + a.toNat ≥ e.toNat ↔ e.toNat ≤ c.toNat + a.toNat := by omega
  simp only [velocityUpdate, if_neg h, if_true, raiseTo_toNat, Nat.cast_max, reaches]
  split
  · rfl
  · rw [saturateHigh_toNat, Nat.cast_min]; rfl

theorem velocityUpdate_down (lo c e a : Word) (clip : Bool) (h : c ≠ e) :
    ((velocityUpdate lo c e false a clip).toNat : Int) =
      max (if clip = true ∧ (c.toNat : Int) - a.toNat ≤ e.toNat then (e.toNat : Int)
           else max ((c.toNat : Int) - a.toNat) 0) lo.toNat := by
  have small : (c.toNat : Int) - a.toNat < 2 ^ 32 := by omega
  simp only [velocityUpdate, if_neg h, Bool.false_eq_true, if_false, raiseTo_toNat, Nat.cast_max]
  split
  · rfl
  · rw [saturateLow_toNat _ small]

/-- Settles O30, case by case: at the target the floor alone is left, and away from it the flag picks the
sum or the difference. -/
theorem velocityUpdateIsExact : Obligations.VelocityUpdateIsExact := by
  intro lo c e a dir clip
  by_cases h : c = e
  · subst h
    rw [velocityUpdate_at_target, raiseTo_toNat, if_pos rfl, Nat.cast_max]
  rw [if_neg h]
  cases dir with
  | true => exact velocityUpdate_up lo c e a clip h
  | false => exact velocityUpdate_down lo c e a clip h

/-! ### The update towards the target (41_velocity_engine.md R104, R109) -/

/-- From below, the clipped update is the target itself or a sum between `curr_c` and the target, which the
saturation and the floor leave there. -/
theorem velocityUpdate_clipped_up (lo c e a : Word) (floor : lo ≤ e) (below : c < e) :
    velocityUpdate lo c e true a true ≤ e ∧ c ≤ velocityUpdate lo c e true a true := by
  have update := velocityUpdate_up lo c e a true (BitVec.ne_of_lt below)
  simp only [true_and] at update
  simp only [BitVec.le_def, BitVec.lt_def] at floor below ⊢
  split at update <;> omega

/-- From above, the clipped update is the target itself or a difference between the target and `curr_c`. -/
theorem velocityUpdate_clipped_down (lo c e a : Word) (floor : lo ≤ e) (above : e < c) :
    e ≤ velocityUpdate lo c e false a true ∧ velocityUpdate lo c e false a true ≤ c := by
  have update := velocityUpdate_down lo c e a true (BitVec.ne_of_lt above).symm
  simp only [true_and] at update
  simp only [BitVec.le_def, BitVec.lt_def] at floor above ⊢
  split at update <;> omega

/-- Settles O32: at the target only the floor could move `curr_c`, and it does not; towards the target the
clamp comes before the target is passed. -/
theorem updateHoldsAndNeverPassesTheTarget : Obligations.UpdateHoldsAndNeverPassesTheTarget := by
  refine ⟨fun lo c a dir clip floor => ?_, fun lo c e a floor =>
    ⟨velocityUpdate_clipped_up lo c e a floor, velocityUpdate_clipped_down lo c e a floor⟩⟩
  rw [velocityUpdate_at_target]
  exact raiseTo_of_le lo c floor

/-! ### GET on the registers, by the step count of the head segment (41_velocity_engine.md R106, R107) -/

theorem get_of_more (cfg : Config) (clip : Bool) (r : Planner) (live : r.nextN[r.head] ≠ 0)
    (more : r.nextN[r.head] ≠ 1) :
    r.get cfg clip =
      ((r.updated cfg clip).slotWrite .n r.head (r.nextN[r.head] - 1),
        okWith (r.updated cfg clip).currC) := by
  rw [get_of_live cfg clip r live, consumeStep_currC, consumeStep_of_more _ _ more, updated_head]

theorem get_of_last (cfg : Config) (clip : Bool) (r : Planner) (last : r.nextN[r.head] = 1) :
    r.get cfg clip =
      (((r.updated cfg clip).advanceHead r.head).loadNext, okWith (r.updated cfg clip).currC) := by
  have live : r.nextN[r.head] ≠ 0 := by rw [last]; decide
  rw [get_of_live cfg clip r live, consumeStep_currC, last, consumeStep_of_last, updated_head]

/-- Retiring the head slot leaves the next slot's count, which the segment load then reads. -/
theorem advanceHead_next_nextN (r : Planner) :
    (r.advanceHead r.head).nextN[(r.advanceHead r.head).head] = r.nextN[r.head + 1] :=
  slot_set_ne r.nextN r.head (ringSucc r.head) 0 (ringSucc_ne r.head).symm

theorem get_of_last_next_free (cfg : Config) (clip : Bool) (r : Planner)
    (last : r.nextN[r.head] = 1) (free : r.nextN[r.head + 1] = 0) :
    r.get cfg clip =
      ((r.updated cfg clip).advanceHead r.head, okWith (r.updated cfg clip).currC) := by
  have retired := (advanceHead_next_nextN (r.updated cfg clip)).trans free
  rw [get_of_last cfg clip r last]
  exact congrArg (·, _) (loadNext_of_free _ retired)

theorem get_of_last_next_live (cfg : Config) (clip : Bool) (r : Planner)
    (last : r.nextN[r.head] = 1) (live : r.nextN[r.head + 1] ≠ 0) :
    r.get cfg clip =
      ({ (r.updated cfg clip).advanceHead r.head with
          endC := addMod r.endC r.nextDc[r.head + 1]
          accel := accelFlag (r.updated cfg clip).currC (addMod r.endC r.nextDc[r.head + 1]) },
        okWith (r.updated cfg clip).currC) := by
  have loaded := (advanceHead_next_nextN (r.updated cfg clip)).trans_ne live
  rw [get_of_last cfg clip r last]
  exact congrArg (·, _) (loadNext_of_live _ loaded)

/-! ### GET as a whole transaction (41_velocity_engine.md R100) -/

/-- On a ready port C, GET writes the registers and the response of that port, and nothing else. -/
theorem exec_get_of_readyC (clip : Bool) (s : State) (onC : s.port = .C) (h : s.readyC) :
    exec (.get clip) s = .next { s with
      planner := (s.planner.get Config.platform clip).1
      rspC := some (s.planner.get Config.platform clip).2 } := by
  have ready : s.ready := by unfold State.ready; rw [onC]; exact h
  have accepted : acceptedOn (.get clip) s.port = true := by rw [onC]; rfl
  have performed := perform_of_ready s (.get clip) (Planner.get Config.platform clip) ready accepted rfl
  rw [onC, State.complete, Bool.or_false] at performed
  exact performed

/-- Settles O26: GET finds the queue empty at G2 and answers there. -/
theorem getOnEmptyQueueWritesNothing : Obligations.GetOnEmptyQueueWritesNothing := by
  intro clip s onC ready empty
  rw [exec_get_of_readyC clip s onC ready, get_of_empty _ clip _ empty]
  rfl

/-- Settles O27: with more than one step left, G7 writes the count back and goes to G14. -/
theorem getConsumesOneStep : Obligations.GetConsumesOneStep := by
  rintro clip s a c' onC ready live more rfl rfl
  rw [exec_get_of_readyC clip s onC ready, get_of_more _ clip _ live more]
  rfl

/-- Settles O28: the slot is retired, and G10 finds the next one free. -/
theorem getRetiresTheLastSegment : Obligations.GetRetiresTheLastSegment := by
  rintro clip s a c' onC ready last free rfl rfl
  rw [exec_get_of_readyC clip s onC ready, get_of_last_next_free _ clip _ last free]
  rfl

/-- Settles O29: the slot is retired, and G10 finds the next one live, so that G11 to G13 load it. -/
theorem getLoadsTheNextSegment : Obligations.GetLoadsTheNextSegment := by
  rintro clip s a c' e' onC ready last live rfl rfl rfl
  rw [exec_get_of_readyC clip s onC ready, get_of_last_next_live _ clip _ last live]
  rfl

end Sys2Proof.Machine
end

section
/-! SUPPORT. The statements of spec/42_filler.md: PUT and BEGIN as whole transactions (R124, R126, R127), the
owner's writes to its descriptors (R130), and each action of a FILL call, from its beginning to its return
(R128, R129). -/

namespace Sys2Proof.Machine

/-! ### PUT as a whole transaction (42_filler.md R126, R127) -/

/-- On a ready port P, PUT writes the registers and the response of that port, and nothing else. -/
theorem exec_put_of_readyP (steps speed : Word) (s : State) (onP : s.port = .P) (h : s.readyP) :
    exec (.put steps speed) s = .next { s with
      planner := (s.planner.put steps speed).1
      rspP := some (s.planner.put steps speed).2 } := by
  have ready : s.ready := by unfold State.ready; rw [onP]; exact h
  have accepted : acceptedOn (.put steps speed) s.port = true := by rw [onP]; rfl
  have performed := perform_of_ready s (.put steps speed) (Planner.put steps speed) ready accepted rfl
  rw [onP, State.complete, Bool.or_false] at performed
  exact performed

/-- Settles O21: the tail slot is free at P2, and P4 to P7 make the four writes. -/
theorem putQueuesTheSegment : Obligations.PutQueuesTheSegment := by
  intro steps speed s onP ready nonzero free
  rw [exec_put_of_readyP steps speed s onP ready, put_of_free _ _ _ nonzero free]
  rfl

/-- Settles O22: the tail slot is live at P2, which answers. -/
theorem putOnFullQueueChangesNothing : Obligations.PutOnFullQueueChangesNothing := by
  intro steps speed s onP ready nonzero full
  rw [exec_put_of_readyP steps speed s onP ready, put_of_full _ _ _ nonzero full]
  rfl

/-- Settles O23: P0 answers before the queue is read. -/
theorem putOfZeroStepsAnswersErr : Obligations.PutOfZeroStepsAnswersErr := by
  intro speed s onP ready
  rw [exec_put_of_readyP 0 speed s onP ready, put_of_zero]
  rfl

/-! ### BEGIN as a whole transaction (42_filler.md R124) -/

/-- On a ready port C, BEGIN writes the registers and the response of that port, and nothing else. -/
theorem exec_begin_of_readyC (target : Word) (s : State) (onC : s.port = .C) (h : s.readyC) :
    exec (.beginDda target) s = .next { s with
      planner := (s.planner.beginDda target).1
      rspC := some (s.planner.beginDda target).2 } := by
  have ready : s.ready := by unfold State.ready; rw [onC]; exact h
  have accepted : acceptedOn (.beginDda target) s.port = true := by rw [onC]; rfl
  have performed :=
    perform_of_ready s (.beginDda target) (Planner.beginDda target) ready accepted rfl
  rw [onC, State.complete, Bool.or_false] at performed
  exact performed

/-- Settles O24: the head slot is live at B2, and B3 and B4 make the two writes. -/
theorem beginSetsTheTarget : Obligations.BeginSetsTheTarget := by
  intro target s onC ready live
  rw [exec_begin_of_readyC target s onC ready, begin_of_live _ _ live]
  rfl

/-- Settles O25: the head slot is free at B2, which answers. -/
theorem beginOnEmptyQueueChangesNothing : Obligations.BeginOnEmptyQueueChangesNothing := by
  intro target s onC ready empty
  rw [exec_begin_of_readyC target s onC ready, begin_of_empty _ _ empty]
  rfl

/-! ### The entry FILL takes (42_filler.md R129) -/

theorem unqueued_ne_zero (d : Descriptor) (h : d.queuedSteps < d.totalSteps) : unqueued d ≠ 0 := by
  unfold unqueued; bv_omega

theorem fillEntry_steps_le (cfg : Config) (d : Descriptor) (h : d.queuedSteps < d.totalSteps) :
    (fillEntry cfg d).1 ≤ unqueued d := by
  have left := unqueued_ne_zero d h
  simp only [fillEntry]
  split
  · bv_omega
  · split <;> bv_omega

theorem fillEntry_of_within (cfg : Config) (d : Descriptor) (nonzero : (cfg.fillProposal d).1 ≠ 0)
    (fits : (cfg.fillProposal d).1 ≤ unqueued d) : fillEntry cfg d = cfg.fillProposal d := by
  simp only [fillEntry, if_neg nonzero, if_neg (BitVec.not_lt.mpr fits)]

/-- Settles O47: what is brought into the bound is in it, and what is in it is not touched. -/
theorem fillEntriesAreWithinTheRequest : Obligations.FillEntriesAreWithinTheRequest :=
  fun cfg d left => ⟨fillEntry_steps_ne_zero cfg d left, fillEntry_steps_le cfg d left,
    fillEntry_of_within cfg d⟩

/-! ### The owner's writes (42_filler.md R130, 10_state.md R36) -/

theorem step_create (s : State) (n v : Word) (rest : List Event)
    (hi : s.inputs = .create n v :: rest) :
    step s = .next ((s.withInputs rest).createDescriptor n v) := by
  unfold step; rw [hi]; rfl

theorem step_amend (s : State) (ref : Nat) (n v : Word) (rest : List Event)
    (hi : s.inputs = .amend ref n v :: rest) :
    step s = .next ((s.withInputs rest).amendDescriptor ref n v) := by
  unfold step; rw [hi]; rfl

theorem amendDescriptor_of_some (s : State) (ref : Nat) (n v : Word) (d : Descriptor)
    (hd : s.descriptor ref = some d) :
    s.amendDescriptor ref n v = { s with ddas := s.ddas.set ref ⟨n, v, d.queuedSteps⟩ } := by
  have found : s.ddas[ref]? = some d := hd
  rw [State.amendDescriptor, List.modify_eq_set_getElem?, found]
  rfl

theorem amendDescriptor_of_none (s : State) (ref : Nat) (n v : Word)
    (hd : s.descriptor ref = none) : s.amendDescriptor ref n v = s := by
  have absent : s.ddas[ref]? = none := hd
  rw [State.amendDescriptor, List.modify_eq_set_getElem?, absent]
  rfl

/-- Settles O55: the two writes, and the write to a descriptor that there is not. -/
theorem ownersWriteTheirDescriptors : Obligations.OwnersWriteTheirDescriptors := by
  refine fun s n v rest => ⟨step_create s n v rest, fun ref hi => ?_⟩
  rw [step_amend s ref n v rest hi]
  exact ⟨fun d hd => congrArg _ (amendDescriptor_of_some (s.withInputs rest) ref n v d hd),
    fun hd => congrArg _ (amendDescriptor_of_none (s.withInputs rest) ref n v hd)⟩

/-! ### A FILL call begins (42_filler.md R128 L0, 70_reset_and_hazards.md R184, R187) -/

theorem step_fill (s : State) (ref : Nat) (rest : List Event) (hi : s.inputs = .fill ref :: rest) :
    step s = startFill ref (s.withInputs rest) := by
  unfold step; rw [hi]; rfl

/-- `s` with a FILL call on the descriptor number `ref` begun: `done` is 0 (42_filler.md R128 L0). -/
def State.fillBegun (s : State) (ref : Nat) : State :=
  { s with fill := some ⟨ref, 0, none⟩, fillResult := none }

theorem startFill_of_busy (ref : Nat) (s : State) (h : s.flightP ≠ none ∨ s.fill ≠ none) :
    startFill ref s = .refused .portBusy := by
  have busy : s.busy .P = true := by
    simpa only [State.busy, Bool.or_eq_true, Option.isSome_iff_ne_none] using h
  exact if_pos busy

/-- On an idle producer, what is left to refuse is a call before the first INIT and one without a
descriptor. -/
theorem startFill_of_idle (ref : Nat) (s : State) (idle : s.idleOn .P) :
    startFill ref s =
      if !s.inited then .refused .beforeFirstInit
      else if (s.descriptor ref).isNone then .refused .noDescriptor
      else .next (s.fillBegun ref) := by
  simp only [startFill, busy_of_idleOn s .P idle, Bool.false_eq_true, if_false]
  rfl

/-- A FILL call on a ready producer, by whether there is its descriptor. -/
theorem startFill_of_readyP (ref : Nat) (s : State) (ready : s.readyP) :
    startFill ref s =
      if (s.descriptor ref).isNone then .refused .noDescriptor
      else .next (s.fillBegun ref) := by
  obtain ⟨inited, idle, noFill⟩ := ready
  rw [startFill_of_idle ref s ⟨idle, fun _ => noFill⟩, inited]
  rfl

theorem startFill_of_descriptor (ref : Nat) (s : State) (d : Descriptor) (ready : s.readyP)
    (hd : s.descriptor ref = some d) :
    startFill ref s = .next (s.fillBegun ref) := by
  rw [startFill_of_readyP ref s ready, hd]; rfl

/-- Settles O56: the call's three checks in their order, and the call begun where none refuses it. -/
theorem fillBeginsOrIsRefused : Obligations.FillBeginsOrIsRefused := by
  intro s ref rest hi
  rw [step_fill s ref rest hi]
  refine ⟨fun ready d hd => startFill_of_descriptor ref (s.withInputs rest) d ready hd,
    startFill_of_busy ref (s.withInputs rest), fun idle noFill notInited => ?_, fun ready hd => ?_⟩
  · rw [startFill_of_idle ref (s.withInputs rest) ⟨idle, fun _ => noFill⟩]
    exact if_pos (congrArg not notInited)
  · rw [startFill_of_readyP ref (s.withInputs rest) ready]
    exact if_pos (congrArg Option.isNone hd)

/-! ### The actions of a running FILL call (42_filler.md R128 L1 to L7) -/

/-- With nothing in flight on port P, the next action there is the running FILL call's. -/
theorem step_micro_of_fill (s : State) (l : FillLoop) (rest : List Event)
    (hi : s.inputs = .micro .P :: rest) (hf : s.flightP = none) (hl : s.fill = some l) :
    step s = (s.withInputs rest).stepFill l := by
  rw [step_micro s .P rest hi]
  exact advance_of_fill (s.withInputs rest) l hf hl

theorem stepFill_of_left (s : State) (l : FillLoop) (d : Descriptor)
    (hd : s.descriptor l.ref = some d) (ha : l.asked = none) (inited : s.inited = true)
    (left : d.queuedSteps < d.totalSteps) :
    s.stepFill l =
      .next (s.fillIssue l (fillEntry Config.platform d).1 (fillEntry Config.platform d).2) := by
  simp only [State.stepFill, hd, ha, if_pos left, if_pos inited]

theorem stepFill_of_queued (s : State) (l : FillLoop) (d : Descriptor)
    (hd : s.descriptor l.ref = some d) (ha : l.asked = none) (queued : d.totalSteps ≤ d.queuedSteps) :
    s.stepFill l = .next (s.fillReturn l) := by
  simp only [State.stepFill, hd, ha, if_neg (BitVec.not_lt.mpr queued)]

theorem stepFill_of_ok (s : State) (l : FillLoop) (d : Descriptor) (n : Word)
    (hd : s.descriptor l.ref = some d) (ha : l.asked = some n)
    (ok : s.rspP.any (·.status == .ok) = true) : s.stepFill l = .next (s.fillCredit l d n) := by
  simp only [State.stepFill, hd, ha, ok, if_true]

/-- The PUT of a running FILL call is answered: `OK` is credited, any other answer ends the call. -/
theorem step_fill_answered (s : State) (l : FillLoop) (d : Descriptor) (n : Word) (rest : List Event)
    (rsp : Response) (hi : s.inputs = .micro .P :: rest) (hf : s.flightP = none)
    (hl : s.fill = some l) (hd : s.descriptor l.ref = some d) (ha : l.asked = some n)
    (hr : s.rspP = some rsp) :
    step s = .next (if rsp.status = .ok then (s.withInputs rest).fillCredit l d n
      else (s.withInputs rest).fillReturn l) := by
  have answered : s.rspP.any (·.status == .ok) = (rsp.status == .ok) := by rw [hr]; rfl
  split
  · rename_i ok
    rw [step_micro_of_fill s l rest hi hf hl]
    exact stepFill_of_ok (s.withInputs rest) l d n hd ha (answered.trans (beq_iff_eq.mpr ok))
  · rename_i refused
    exact step_fill_refused s l d n rest hi hf hl hd ha
      (answered.trans (beq_eq_false_iff_ne.mpr refused))

theorem step_fill_queued (s : State) (l : FillLoop) (d : Descriptor) (rest : List Event)
    (hi : s.inputs = .micro .P :: rest) (hf : s.flightP = none) (hl : s.fill = some l)
    (hd : s.descriptor l.ref = some d) (ha : l.asked = none) (queued : d.totalSteps ≤ d.queuedSteps) :
    step s = .next ((s.withInputs rest).fillReturn l) := by
  rw [step_micro_of_fill s l rest hi hf hl]
  exact stepFill_of_queued (s.withInputs rest) l d hd ha queued

/-- Settles O49: the answer credited or the call ended (L4 to L7), and on a descriptor fully queued the call
ended at L1, also in the first action after it began. -/
theorem fillCountsWhatItQueued : Obligations.FillCountsWhatItQueued := by
  refine ⟨fun s l d n rest rsp hi hf hl hd ha hr => ?_, fun s l d rest hi hf hl hd ha queued =>
    step_fill_queued s l d rest hi hf hl hd ha queued, fun s ref d rest hi ready hd queued => ?_⟩
  · rw [step_fill_answered s l d n rest rsp hi hf hl hd ha hr]
    rfl
  · obtain ⟨-, idle, noFill⟩ := id ready
    have begun := (step_fill s ref _ hi).trans
      (startFill_of_descriptor ref (s.withInputs (.micro .P :: rest)) d ready hd)
    have returned := step_fill_queued ((s.withInputs (.micro .P :: rest)).fillBegun ref)
      ⟨ref, 0, none⟩ d rest rfl idle rfl hd rfl queued
    rw [runFor_of_next 1 _ _ begun, runFor_of_next 0 _ _ returned]
    simp only [noFill]
    rfl

/-- Settles O50: with steps left and no PUT asked for, L1 to L3 issue the policy's PUT. -/
theorem fillIssuesThePolicysPut : Obligations.FillIssuesThePolicysPut := by
  intro s l d rest n v hi hf inited hl hd ha left entry
  rw [step_micro_of_fill s l rest hi hf hl,
    stepFill_of_left (s.withInputs rest) l d hd ha inited left, ← entry]
  rfl

end Sys2Proof.Machine
end

section
/-! SUPPORT. The statements of spec/42_filler.md about every step of a FILL call (R128): what a step can be
while one runs, that the call waits for its own PUT (R129, R131), where it ends, and how many entries it
inserts beside a consumer (20_memory.md R62, 43_phases_and_invariants.md R150). -/

namespace Sys2Proof.Machine

/-! ### What a step can be while a FILL call runs (20_memory.md R62, 70_reset_and_hazards.md R187) -/

/-- From `s` to `t` nothing is different on the producer's side: the FILL call, the transaction in flight on
port P and the response there. -/
def ProducerKept (s t : State) : Prop :=
  t.fill = s.fill ∧ t.flightP = s.flightP ∧ t.rspP = s.rspP

/-- What the consumer can do in one step, from the registers `r` and the transaction `f` in flight on port C
to `r'` and `f'`. -/
inductive ConsumerStep (r : Planner) (f : Option Flight) (r' : Planner) (f' : Option Flight) : Prop
  /-- Nothing, or a word answered at once. -/
  | idle (registers : r' = r) (flight : f' = f)
  /-- A command begun. -/
  | begins (i : Instr) (w : CmdWord) (m : Micro) (first : Micro.first i = some m)
      (accepted : acceptedOn i .C = true) (registers : r' = r) (flight : f' = some ⟨w, m⟩)
  /-- One micro-step of the command in flight. -/
  | micro (g : Flight) (taken : f = some g)
      (registers : r' = (microStep Config.platform g.micro r).1)
      (flight : ∀ g', f' = some g' → (microStep Config.platform g.micro r).2 = .go g'.micro)
  /-- A command performed whole. -/
  | whole (i : Instr) (m : Micro) (first : Micro.first i = some m)
      (accepted : acceptedOn i .C = true)
      (registers : r' = (runMicro Config.platform 14 m r).1) (flight : f' = none)

/-- From `s` to `t` the consumer takes a step beside the producer. -/
def ConsumerTurn (s t : State) : Prop :=
  ProducerKept s t ∧ ConsumerStep s.planner s.flightC t.planner t.flightC

theorem busy_of_fill (s : State) (l : FillLoop) (hl : s.fill = some l) : s.busy .P = true := by
  rw [State.busy, hl]; exact Bool.or_true _

theorem exec_not_busy (i : Instr) (s t : State) (h : exec i s = .next t) : s.busy s.port = false := by
  obtain ⟨body, hexec, -⟩ := exec_is_perform i
  rw [hexec] at h
  obtain ⟨rejected, -⟩ | ⟨accepted, -⟩ := perform_next s t i body h
  · exact (admission_reject s s.port i rejected).1
  · exact (admission_accept s s.port i accepted).1

theorem startCommand_not_busy (p : Port) (w : CmdWord) (s t : State)
    (h : startCommand p w s = .next t) : s.busy p = false := by
  obtain ⟨free, -, -⟩ | ⟨m, -, accepted, -⟩ := startCommand_next p w s t h
  · exact free
  · exact (admission_accept s p _ accepted).1

theorem exec_onC (i : Instr) (s t : State) (onC : s.port = .C) (h : exec i s = .next t) :
    ConsumerTurn s t := by
  have same : ProducerKept s t ∧ t.flightC = s.flightC := by
    obtain rfl | ⟨m, r, rsp, -, -, rfl⟩ := exec_next i s t h <;> rw [onC] <;>
      exact ⟨⟨rfl, rfl, rfl⟩, rfl⟩
  obtain ⟨kept, flight⟩ := same
  have idle : s.flightC = none := (idleOn_of_not_busy s .C (onC ▸ exec_not_busy i s t h)).1
  obtain registers | ⟨m, first, accepted, registers⟩ := exec_planner i s t h
  · exact ⟨kept, .idle registers flight⟩
  · exact ⟨kept, .whole i m first (onC ▸ accepted) registers (flight.trans idle)⟩

theorem startCommand_onC (w : CmdWord) (s t : State) (h : startCommand .C w s = .next t) :
    ConsumerTurn s t := by
  obtain ⟨-, rfl, -⟩ | ⟨m, first, ha, rfl⟩ := startCommand_next .C w s t h
  · exact ⟨⟨rfl, rfl, rfl⟩, .idle rfl rfl⟩
  · obtain ⟨-, accepted, -, -⟩ := admission_accept s .C _ ha
    exact ⟨⟨rfl, rfl, rfl⟩, .begins _ w m first accepted rfl rfl⟩

theorem stepFlight_onC (s : State) (f : Flight) (hf : s.flightC = some f) :
    ConsumerTurn s (s.stepFlight .C f) := by
  rcases hm : microStep Config.platform f.micro s.planner with ⟨r, m | rsp⟩
  · rw [stepFlight_go s .C f m r hm]
    refine ⟨⟨rfl, rfl, rfl⟩, .micro f hf (congrArg Prod.fst hm).symm fun g' hg => ?_⟩
    cases hg
    exact congrArg Prod.snd hm
  · rw [stepFlight_done s .C f r rsp hm]
    exact ⟨⟨rfl, rfl, rfl⟩, .micro f hf (congrArg Prod.fst hm).symm nofun⟩

theorem advance_onC (s t : State) (h : advance .C s = .next t) : ConsumerTurn s t := by
  obtain ⟨f, hf, rfl⟩ | ⟨onP, -⟩ | ⟨-, rfl⟩ := advance_next .C s t h
  · exact stepFlight_onC s f hf
  · cases onP
  · exact ⟨⟨rfl, rfl, rfl⟩, .idle rfl rfl⟩

/-- While a FILL call runs, a step is a micro-step of the transaction in flight on port P, with none there
an action of the call, or the consumer's: nothing else is taken from the producer. -/
theorem step_of_fill (s t : State) (l : FillLoop) (hl : s.fill = some l) (h : step s = .next t) :
    (∃ f rest, s.flightP = some f ∧ t = (s.withInputs rest).stepFlight .P f) ∨
    (s.flightP = none ∧ ∃ rest, (s.withInputs rest).stepFill l = .next t) ∨
    ConsumerTurn s t := by
  have busy : ∀ rest, (s.withInputs rest).busy .P ≠ false := fun rest =>
    ne_of_eq_of_ne (busy_of_fill (s.withInputs rest) l hl) nofun
  have untouched : ConsumerTurn s s := ⟨⟨rfl, rfl, rfl⟩, .idle rfl rfl⟩
  obtain ⟨p, w, rest, -, he⟩ | ⟨p, w, rest, -, hw⟩ | ⟨p, rest, -, ha⟩ | ⟨ref, rest, -, hf⟩ |
    ⟨n, v, rest, -, rfl⟩ | ⟨ref, n, v, rest, -, rfl⟩ := step_next s t h
  · cases p with
    | P => exact absurd (exec_not_busy _ _ t he) (busy rest)
    | C => exact .inr (.inr (exec_onC _ (s.taking .C rest) t rfl he))
  · cases p with
    | P => exact absurd (startCommand_not_busy .P w _ t hw) (busy rest)
    | C => exact .inr (.inr (startCommand_onC w (s.withInputs rest) t hw))
  · cases p with
    | P =>
      obtain ⟨f, hf, ht⟩ | ⟨-, idle, l', hl', hs⟩ | ⟨-, rfl⟩ :=
        advance_next .P (s.withInputs rest) t ha
      · exact .inl ⟨f, rest, hf, ht⟩
      · cases hl.symm.trans hl'
        exact .inr (.inl ⟨idle, rest, hs⟩)
      · exact .inr (.inr untouched)
    | C => exact .inr (.inr (advance_onC (s.withInputs rest) t ha))
  · obtain ⟨free, -⟩ := startFill_next ref _ t hf
    exact absurd free (busy rest)
  · exact .inr (.inr untouched)
  · exact .inr (.inr untouched)

theorem stepFlight_fill (s : State) (p : Port) (f : Flight) : (s.stepFlight p f).fill = s.fill := by
  unfold State.stepFlight; split <;> simp

/-! ### The FILL call waits for its own PUT (42_filler.md R128 L3, L4; R129; R131) -/

theorem microOn_P_of_flight (s : State) (f : Flight) (hf : s.flightP = some f) :
    s.microOn .P = some f.micro := congrArg (Option.map Flight.micro) hf

theorem microOn_P_of_none (s : State) (hf : s.flightP = none) : s.microOn .P = none :=
  congrArg (Option.map Flight.micro) hf

theorem fillWaits_of_no_fill (s : State) (hl : s.fill = none) : s.FillWaits :=
  fun l h => by cases hl.symm.trans h

theorem fillWaits_iff_idle (s : State) (l : FillLoop) (hl : s.fill = some l) (ha : l.asked = none) :
    s.FillWaits ↔ s.flightP = none := by
  simp only [State.FillWaits, hl, Option.some.injEq, forall_eq', ha]

theorem fillWaits_iff_putSteps (s : State) (l : FillLoop) (n : Word) (f : Flight)
    (hl : s.fill = some l) (ha : l.asked = some n) (hf : s.flightP = some f) :
    s.FillWaits ↔ n ≠ 0 ∧ f.micro.putSteps = some n := by
  simp only [State.FillWaits, hl, Option.some.injEq, forall_eq', ha, microOn_P_of_flight s f hf]

theorem fillWaits_iff_answered (s : State) (l : FillLoop) (n : Word) (hl : s.fill = some l)
    (ha : l.asked = some n) (hf : s.flightP = none) :
    s.FillWaits ↔ n ≠ 0 ∧ ∃ r, s.rspP = some r ∧ (r.status = .ok ∨ r.status = .full) := by
  simp only [State.FillWaits, hl, Option.some.injEq, forall_eq', ha, microOn_P_of_none s hf]

theorem fillWaits_of_kept (s t : State) (kept : ProducerKept s t) (waits : s.FillWaits) :
    t.FillWaits := by
  obtain ⟨fill, flight, rsp⟩ := kept
  have micro : t.microOn .P = s.microOn .P := congrArg (Option.map Flight.micro) flight
  unfold State.FillWaits
  rw [fill, flight, rsp, micro]
  exact waits

/-- A transaction in flight beside a running FILL call is its PUT, of the steps it asked for. -/
theorem asked_of_flight (s : State) (l : FillLoop) (f : Flight) (hl : s.fill = some l)
    (waits : s.FillWaits) (hf : s.flightP = some f) :
    ∃ n, l.asked = some n ∧ n ≠ 0 ∧ f.micro.putSteps = some n := by
  cases ha : l.asked with
  | none => cases hf.symm.trans ((fillWaits_iff_idle s l hl ha).mp waits)
  | some n => exact ⟨n, rfl, (fillWaits_iff_putSteps s l n f hl ha hf).mp waits⟩

/-- A PUT of at least one step goes on as that PUT, or is answered `FULL` at P2 or `OK` at P8: the `ERR` of P0
is for 0 steps only. -/
theorem microStep_put (cfg : Config) (m : Micro) (n : Word) (r : Planner) (hm : m.putSteps = some n)
    (nonzero : n ≠ 0) :
    (∃ m', (microStep cfg m r).2 = .go m' ∧ m'.putSteps = some n) ∨
    ∃ rsp, (microStep cfg m r).2 = .done rsp ∧ (rsp.status = .ok ∨ rsp.status = .full) := by
  cases m <;> cases hm
  case p0 speed => rw [microStep_p0 cfg n speed r nonzero]; exact .inl ⟨_, rfl, rfl⟩
  case p2 speed t =>
    by_cases free : r.nextN[t] = 0
    · rw [microStep_p2_free cfg n speed t r free]; exact .inl ⟨_, rfl, rfl⟩
    · rw [microStep_p2_live cfg n speed t r free]; exact .inr ⟨_, rfl, .inr rfl⟩
  case p8 => exact .inr ⟨_, rfl, .inl rfl⟩
  all_goals exact .inl ⟨_, rfl, rfl⟩

theorem stepFlight_fillWaits (s : State) (l : FillLoop) (f : Flight) (hl : s.fill = some l)
    (waits : s.FillWaits) (hf : s.flightP = some f) : (s.stepFlight .P f).FillWaits := by
  obtain ⟨n, ha, nonzero, put⟩ := asked_of_flight s l f hl waits hf
  have hl' : (s.stepFlight .P f).fill = some l := (stepFlight_fill s .P f).trans hl
  have next := microStep_put Config.platform f.micro n s.planner put nonzero
  rcases hm : microStep Config.platform f.micro s.planner with ⟨r, m | rsp⟩ <;> rw [hm] at next
  · obtain ⟨m', went, put'⟩ | ⟨rsp, answered, -⟩ := next
    · cases went
      rw [stepFlight_go s .P f m r hm] at hl' ⊢
      exact (fillWaits_iff_putSteps _ l n _ hl' ha rfl).mpr ⟨nonzero, put'⟩
    · cases answered
  · obtain ⟨m', went, -⟩ | ⟨rsp', answered, status⟩ := next
    · cases went
    · cases answered
      rw [stepFlight_done s .P f r rsp hm] at hl' ⊢
      exact (fillWaits_iff_answered _ l n hl' ha rfl).mpr ⟨nonzero, rsp, rfl, status⟩

theorem stepFill_fillWaits (s t : State) (l : FillLoop) (idle : s.flightP = none)
    (h : s.stepFill l = .next t) : t.FillWaits := by
  obtain ⟨d, -, ⟨-, left, -, rfl⟩ | ⟨-, -, rfl⟩ | ⟨n, -, -, rfl⟩ | ⟨n, -, -, rfl⟩⟩ :=
    stepFill_next s t l h
  · have nonzero := fillEntry_steps_ne_zero Config.platform d left
    exact (fillWaits_iff_putSteps _ _ _ _ rfl rfl rfl).mpr ⟨nonzero, rfl⟩
  · exact fillWaits_of_no_fill _ rfl
  · exact (fillWaits_iff_idle _ _ rfl rfl).mpr idle
  · exact fillWaits_of_no_fill _ rfl

/-- A step with no FILL call running leaves none, or begins one beside nothing in flight on port P. -/
theorem step_of_no_fill (s t : State) (hl : s.fill = none) (h : step s = .next t) :
    t.fill = none ∨ ∃ l, t.fill = some l ∧ l.asked = none ∧ t.flightP = none := by
  obtain ⟨p, w, rest, -, he⟩ | ⟨p, w, rest, -, hw⟩ | ⟨p, rest, -, ha⟩ | ⟨ref, rest, -, hf⟩ |
    ⟨n, v, rest, -, rfl⟩ | ⟨ref, n, v, rest, -, rfl⟩ := step_next s t h
  · obtain rfl | ⟨m, r, rsp, -, -, rfl⟩ := exec_next _ (s.taking p rest) t he
    · exact .inl ((answer_fill _ _ _).trans hl)
    · exact .inl ((complete_fill _ _ _ _ _).trans hl)
  · obtain ⟨-, rfl, -⟩ | ⟨m, -, -, rfl⟩ := startCommand_next p w (s.withInputs rest) t hw
    · exact .inl ((answer_fill _ _ _).trans hl)
    · exact .inl ((launch_fill _ _ _ _).trans hl)
  · obtain ⟨f, -, rfl⟩ | ⟨-, -, l, hl', -⟩ | ⟨-, rfl⟩ := advance_next p (s.withInputs rest) t ha
    · exact .inl ((stepFlight_fill (s.withInputs rest) p f).trans hl)
    · cases hl.symm.trans hl'
    · exact .inl hl
  · obtain ⟨free, -, -, rfl⟩ := startFill_next ref (s.withInputs rest) t hf
    exact .inr ⟨_, rfl, rfl, (idleOn_of_not_busy _ .P free).1⟩
  · exact .inl hl
  · exact .inl hl

theorem step_fillWaits (s t : State) (waits : s.FillWaits) (h : step s = .next t) : t.FillWaits := by
  cases hl : s.fill with
  | none =>
    obtain noCall | ⟨l, hl', ha, idle⟩ := step_of_no_fill s t hl h
    · exact fillWaits_of_no_fill t noCall
    · exact (fillWaits_iff_idle t l hl' ha).mpr idle
  | some l =>
    obtain ⟨f, rest, hf, rfl⟩ | ⟨idle, rest, hs⟩ | ⟨kept, -⟩ := step_of_fill s t l hl h
    · exact stepFlight_fillWaits (s.withInputs rest) l f hl waits hf
    · exact stepFill_fillWaits (s.withInputs rest) t l idle hs
    · exact fillWaits_of_kept s t kept waits

/-- Settles O58, by what a step can be: the PUT's own micro-step, an action of the call, or nothing on the
producer's side; and a call begins with nothing in flight. -/
theorem fillWaitsForItsOwnPut : Obligations.FillWaitsForItsOwnPut := step_fillWaits

/-! ### Where a FILL call ends (42_filler.md R128 L1, L4, L7) -/

/-- An answer that is not `OK`, where only `OK` and `FULL` can be, is `FULL`. -/
theorem full_of_not_ok (s : State) (l : FillLoop) (n : Word) (hl : s.fill = some l)
    (ha : l.asked = some n) (waits : s.FillWaits) (idle : s.flightP = none)
    (refused : s.rspP.any (·.status == .ok) = false) : ∃ r, s.rspP = some r ∧ r.status = .full := by
  obtain ⟨-, r, hr, ok | full⟩ := (fillWaits_iff_answered s l n hl ha idle).mp waits
  · rw [hr, Option.any_some, ok] at refused
    cases refused
  · exact ⟨r, hr, full⟩

/-- Settles O57: only an action of the call itself ends it, at L1 or L4. -/
theorem fillReturnsOnlyWhenQueuedOrFull : Obligations.FillReturnsOnlyWhenQueuedOrFull := by
  intro s t l waits hl h ended
  obtain ⟨f, rest, -, rfl⟩ | ⟨idle, rest, hs⟩ | ⟨⟨fill, -⟩, -⟩ := step_of_fill s t l hl h
  · cases hl.symm.trans ((stepFlight_fill (s.withInputs rest) .P f).symm.trans ended)
  · obtain ⟨d, hd, ⟨-, -, -, rfl⟩ | ⟨ha, queued, rfl⟩ | ⟨n, -, -, rfl⟩ | ⟨n, ha, refused, rfl⟩⟩ :=
      stepFill_next (s.withInputs rest) t l hs
    · cases ended
    · exact ⟨rfl, rfl, rfl, idle, d, hd, .inl ⟨ha, BitVec.not_lt.mp queued⟩⟩
    · cases ended
    · have asked : l.asked ≠ none := ne_of_eq_of_ne ha nofun
      exact ⟨rfl, rfl, rfl, idle, d, hd,
        .inr ⟨asked, full_of_not_ok s l n hl ha waits idle refused⟩⟩
  · cases hl.symm.trans (fill.symm.trans ended)

end Sys2Proof.Machine
end

section
/-! SUPPORT. How many entries a FILL call inserts (spec/42_filler.md R128): each makes live a slot that was
free at the start or has been freed since, in any interleaving with the consumer (20_memory.md R62,
43_phases_and_invariants.md R150). -/

namespace Sys2Proof.Machine

/-! ### What the two agents know of a slot (20_memory.md R64, R65) -/

/-- The slot that a PUT between P3 and P5 has found free and not yet published. -/
def Micro.freeSlot : Micro → Option SlotIx
  | .p3 _ _ t | .p4 _ _ t _ | .p5 _ _ t _ => some t
  | _ => none

/-- The slot that a GET between G3 and G7 has found live and not yet drained. -/
def Micro.liveSlot : Micro → Option SlotIx
  | .g3 _ h _ | .g4 _ h _ _ => some h
  | .g5 l | .g6 l | .g7 l => some l.h
  | _ => none

/-- What of the ring invariant keeps the two agents off each other's slots: port C runs its own commands, the
slot a PUT has found free is still free, and the one a GET has found live is still live. -/
structure State.SlotsHeld (s : State) : Prop where
  portC : ∀ f, s.flightC = some f → f.micro.ofPort .C = true
  free : ∀ f t, s.flightP = some f → f.micro.freeSlot = some t → s.planner.nextN[t] = 0
  live : ∀ f h, s.flightC = some f → f.micro.liveSlot = some h → s.planner.nextN[h] ≠ 0

theorem producerKnows_freeSlot (r : Planner) (m : Micro) (t : SlotIx) (knows : producerKnows r m)
    (ht : m.freeSlot = some t) : r.nextN[t] = 0 := by
  cases m <;> cases ht
  case p3 => obtain ⟨-, -, free⟩ := knows; exact free
  case p4 | p5 => obtain ⟨-, -, free, -⟩ := knows; exact free

theorem consumerKnows_liveSlot (r : Planner) (m : Micro) (h : SlotIx) (knows : consumerKnows r m)
    (hh : m.liveSlot = some h) : r.nextN[h] ≠ 0 := by
  cases m <;> cases hh <;> (obtain ⟨-, count, live⟩ := knows; exact ne_of_eq_of_ne count live)

theorem slotsHeld_of_ringInv (s : State) (ring : s.RingInv) : s.SlotsHeld where
  portC f hf := ring.portC f.micro (congrArg (Option.map Flight.micro) hf)
  free f t hf :=
    producerKnows_freeSlot s.planner f.micro t (ring.producer f.micro (microOn_P_of_flight s f hf))
  live f h hf :=
    consumerKnows_liveSlot s.planner f.micro h
      (ring.consumer f.micro (congrArg (Option.map Flight.micro) hf))

/-! ### What a micro-step does to the counts -/

/-- Outside INIT, only P5, G7 and G8 write a count. -/
theorem microStep_nextN (cfg : Config) (m : Micro) (r : Planner) (hm : m.isInit = false) :
    (microStep cfg m r).1.nextN = r.nextN ∨
    (∃ n v t p, m = .p5 n v t p ∧ (microStep cfg m r).1.nextN = r.nextN.set t n) ∨
    (∃ l, m = .g7 l ∧ (microStep cfg m r).1.nextN = r.nextN.set l.h (l.n - 1)) ∨
    ∃ l, m = .g8 l ∧ (microStep cfg m r).1.nextN = r.nextN.set l.h 0 := by
  cases m
  case i1 | i2 => cases hm
  case p5 n v t p => exact .inr (.inl ⟨n, v, t, p, rfl, rfl⟩)
  case g7 l =>
    by_cases last : l.n = 1
    · rw [microStep_g7_last cfg l r last]; exact .inl rfl
    · rw [microStep_g7_more cfg l r last]; exact .inr (.inr (.inl ⟨l, rfl, rfl⟩))
  case g8 l => exact .inr (.inr (.inr ⟨l, rfl, rfl⟩))
  all_goals exact .inl rfl

theorem slot_set_keeps_live (v : Vector Word 4) (i j : SlotIx) (x : Word) (hx : x ≠ 0)
    (hj : v[j] ≠ 0) : (v.set i x)[j] ≠ 0 := by
  rw [slot_set]; split <;> assumption

/-- Writing a live slot, or 0 in any slot, keeps a free slot free. -/
theorem slot_set_keeps_free (v : Vector Word 4) (i j : SlotIx) (x : Word) (hx : v[i] ≠ 0 ∨ x = 0)
    (hj : v[j] = 0) : (v.set i x)[j] = 0 := by
  rw [slot_set]
  split
  · rename_i same
    subst same
    exact hx.resolve_left (not_not_intro hj)
  · exact hj

theorem putSteps_command (m : Micro) (n : Word) (hm : m.putSteps = some n) : m.command = .put := by
  cases m <;> cases hm <;> rfl

/-- A micro-step of a PUT of at least one step frees no slot. -/
theorem microStep_put_keeps_live (cfg : Config) (m : Micro) (n : Word) (r : Planner) (i : SlotIx)
    (hm : m.putSteps = some n) (nonzero : n ≠ 0) (live : r.nextN[i] ≠ 0) :
    (microStep cfg m r).1.nextN[i] ≠ 0 := by
  have notInit : m.isInit = false := by rw [Micro.isInit, putSteps_command m n hm]; rfl
  obtain same | ⟨n', v, t, p, rfl, put⟩ | ⟨l, rfl, -⟩ | ⟨l, rfl, -⟩ := microStep_nextN cfg m r notInit
  · rw [same]; exact live
  · cases hm
    rw [put]; exact slot_set_keeps_live r.nextN t i n nonzero live
  · cases hm
  · cases hm

/-- A consumer's micro-step fills no slot. -/
theorem microStep_onC_keeps_free (cfg : Config) (m : Micro) (r : Planner) (i : SlotIx)
    (onC : m.ofPort .C = true) (held : ∀ h, m.liveSlot = some h → r.nextN[h] ≠ 0)
    (free : r.nextN[i] = 0) : (microStep cfg m r).1.nextN[i] = 0 := by
  have notInit : m.isInit = false := by
    cases hc : m.command <;> simp [Micro.isInit, Micro.ofPort, hc] at onC ⊢
  obtain same | ⟨n, v, t, p, rfl, -⟩ | ⟨l, rfl, got⟩ | ⟨l, rfl, retired⟩ :=
    microStep_nextN cfg m r notInit
  · rw [same]; exact free
  · cases onC
  · rw [got]; exact slot_set_keeps_free r.nextN l.h i _ (.inl (held l.h rfl)) free
  · rw [retired]; exact slot_set_keeps_free r.nextN l.h i 0 (.inr rfl) free

/-- A PUT comes to hold a free slot at P2, which finds it free, and writes no count while it goes on to hold
it. -/
theorem microStep_go_freeSlot (cfg : Config) (m m' : Micro) (r : Planner) (t : SlotIx)
    (h : (microStep cfg m r).2 = .go m') (ht : m'.freeSlot = some t)
    (held : ∀ t', m.freeSlot = some t' → r.nextN[t'] = 0) :
    (microStep cfg m r).1.nextN[t] = 0 := by
  cases m
  case p2 n v t' =>
    by_cases free : r.nextN[t'] = 0
    · rw [microStep_p2_free cfg n v t' r free] at h ⊢
      cases h; cases ht; exact free
    · rw [microStep_p2_live cfg n v t' r free] at h
      cases h
  case p3 | p4 => cases h; cases ht; exact held _ rfl
  case p0 | b2 | g2 | g7 | g10 =>
    simp only [microStep] at h
    split at h <;> cases h <;> cases ht
  all_goals cases h <;> cases ht

/-- A GET comes to hold a live slot at G2, which finds it live, and writes no count while it goes on to hold
it. -/
theorem microStep_go_liveSlot (cfg : Config) (m m' : Micro) (r : Planner) (h : SlotIx)
    (hm : (microStep cfg m r).2 = .go m') (hh : m'.liveSlot = some h)
    (held : ∀ h', m.liveSlot = some h' → r.nextN[h'] ≠ 0) :
    (microStep cfg m r).1.nextN[h] ≠ 0 := by
  cases m
  case g2 clip h' =>
    by_cases free : r.nextN[h'] = 0
    · rw [microStep_g2_free cfg clip h' r free] at hm
      cases hm
    · rw [microStep_g2_live cfg clip h' r free] at hm ⊢
      cases hm; cases hh; exact free
  case g3 | g4 | g5 | g6 => cases hm; cases hh; exact held _ rfl
  case p0 | p2 | b2 | g7 | g10 =>
    simp only [microStep] at hm
    split at hm <;> cases hm <;> cases hh
  all_goals cases hm <;> cases hh

/-! ### What a whole consumer command does to the counts -/

theorem consumeStep_keeps_free (r : Planner) (n : Word) (i : SlotIx) (live : r.nextN[r.head] ≠ 0)
    (free : r.nextN[i] = 0) : (r.consumeStep n).nextN[i] = 0 := by
  by_cases last : n = 1
  · rw [last, consumeStep_of_last, loadNext_nextN, advanceHead_nextN]
    exact slot_set_keeps_free r.nextN r.head i 0 (.inr rfl) free
  · rw [consumeStep_of_more r n last, slotWrite_n_nextN]
    exact slot_set_keeps_free r.nextN r.head i _ (.inl live) free

theorem get_keeps_free (cfg : Config) (clip : Bool) (r : Planner) (i : SlotIx)
    (free : r.nextN[i] = 0) : (r.get cfg clip).1.nextN[i] = 0 := by
  by_cases empty : r.nextN[r.head] = 0
  · rw [get_of_empty cfg clip r empty]; exact free
  · rw [get_of_live cfg clip r empty]
    exact consumeStep_keeps_free (r.updated cfg clip) _ i empty free

theorem beginDda_nextN (target : Word) (r : Planner) : (r.beginDda target).1.nextN = r.nextN := by
  unfold Planner.beginDda; split <;> rfl

/-- A whole command that port C accepts fills no slot. -/
theorem runMicro_onC_keeps_free (i : Instr) (m : Micro) (r : Planner) (j : SlotIx)
    (first : Micro.first i = some m) (accepted : acceptedOn i .C = true) (free : r.nextN[j] = 0) :
    (runMicro Config.platform 14 m r).1.nextN[j] = 0 := by
  cases i with
  | full => cases first; rw [runMicro_full]; exact free
  | empty => cases first; rw [runMicro_empty]; exact free
  | get clip => cases first; rw [runMicro_get]; exact get_keeps_free _ clip r j free
  | beginDda target => cases first; rw [runMicro_beginDda, beginDda_nextN]; exact free
  | init | put | reserved0 | reserved7 | reserved8toF => cases accepted

/-! ### Every step of a running FILL call keeps the slots held -/

theorem ofPort_C_first (i : Instr) (m : Micro) (first : Micro.first i = some m)
    (accepted : acceptedOn i .C = true) : m.ofPort .C = true := by
  cases i with
  | full | empty | get | beginDda => cases first; rfl
  | init | put | reserved0 | reserved7 | reserved8toF => cases accepted

theorem liveSlot_first (i : Instr) (m : Micro) (first : Micro.first i = some m) :
    m.liveSlot = none := by
  cases i <;> cases first <;> rfl

theorem ofPort_go (cfg : Config) (p : Port) (m m' : Micro) (r : Planner)
    (h : (microStep cfg m r).2 = .go m') : m'.ofPort p = m.ofPort p := by
  rw [Micro.ofPort, Micro.ofPort, microStep_go_command cfg m m' r h]

theorem consumerStep_keeps_free (s t : State) (held : s.SlotsHeld) (i : SlotIx)
    (turn : ConsumerTurn s t) (free : s.planner.nextN[i] = 0) : t.planner.nextN[i] = 0 := by
  obtain ⟨-, step⟩ := turn
  cases step with
  | idle registers | begins _ _ _ _ _ registers => rw [registers]; exact free
  | micro g taken registers =>
    rw [registers]
    exact microStep_onC_keeps_free _ g.micro s.planner i (held.portC g taken)
      (fun h => held.live g h taken) free
  | whole j m first accepted registers =>
    rw [registers]; exact runMicro_onC_keeps_free j m s.planner i first accepted free

theorem consumerTurn_slotsHeld (s t : State) (held : s.SlotsHeld) (turn : ConsumerTurn s t) :
    t.SlotsHeld := by
  have keepsFree := fun i => consumerStep_keeps_free s t held i turn
  obtain ⟨⟨-, flightP, -⟩, step⟩ := turn
  have free : ∀ f i, t.flightP = some f → f.micro.freeSlot = some i → t.planner.nextN[i] = 0 :=
    fun f i hf hi => keepsFree i (held.free f i (flightP ▸ hf) hi)
  cases step with
  | idle registers flight =>
    exact ⟨flight ▸ held.portC, free, by rw [flight, registers]; exact held.live⟩
  | begins i w m first accepted registers flight =>
    refine ⟨fun f hf => ?_, free, fun f h hf hh => ?_⟩ <;> cases flight.symm.trans hf
    · exact ofPort_C_first i m first accepted
    · cases (liveSlot_first i m first).symm.trans hh
  | micro g taken registers flight =>
    refine ⟨fun f hf => ?_, free, fun f h hf hh => ?_⟩
    · rw [ofPort_go _ .C g.micro f.micro _ (flight f hf)]; exact held.portC g taken
    · rw [registers]
      exact microStep_go_liveSlot _ g.micro f.micro _ h (flight f hf) hh fun h' => held.live g h' taken
  | whole i m first accepted registers flight =>
    refine ⟨fun f hf => ?_, free, fun f h hf => ?_⟩ <;> cases flight.symm.trans hf

theorem stepFlight_slotsHeld (s : State) (f : Flight) (n : Word) (held : s.SlotsHeld)
    (hf : s.flightP = some f) (put : f.micro.putSteps = some n) (nonzero : n ≠ 0) :
    (s.stepFlight .P f).SlotsHeld := by
  have keepsLive := fun i => microStep_put_keeps_live Config.platform f.micro n s.planner i put nonzero
  have goesFree := fun m i hm hi =>
    microStep_go_freeSlot Config.platform f.micro m s.planner i hm hi fun t => held.free f t hf
  rcases hm : microStep Config.platform f.micro s.planner with ⟨r, m | rsp⟩ <;>
    rw [hm] at keepsLive goesFree
  · rw [stepFlight_go s .P f m r hm]
    exact ⟨held.portC, fun g i hg hi => by cases hg; exact goesFree m i rfl hi,
      fun g h hg hh => keepsLive h (held.live g h hg hh)⟩
  · rw [stepFlight_done s .P f r rsp hm]
    exact ⟨held.portC, nofun, fun g h hg hh => keepsLive h (held.live g h hg hh)⟩

theorem stepFill_slotsHeld (s t : State) (l : FillLoop) (held : s.SlotsHeld)
    (h : s.stepFill l = .next t) : t.SlotsHeld := by
  obtain ⟨portC, free, live⟩ := held
  obtain ⟨d, -, ⟨-, -, -, rfl⟩ | ⟨-, -, rfl⟩ | ⟨n, -, -, rfl⟩ | ⟨n, -, -, rfl⟩⟩ :=
    stepFill_next s t l h
  · exact ⟨portC, fun f i hf hi => (by cases hf; cases hi), live⟩
  all_goals exact ⟨portC, free, live⟩

theorem withInputs_slotsHeld (s : State) (rest : List Event) (held : s.SlotsHeld) :
    (s.withInputs rest).SlotsHeld :=
  ⟨held.portC, held.free, held.live⟩

theorem step_slotsHeld (s t : State) (l : FillLoop) (hl : s.fill = some l) (waits : s.FillWaits)
    (held : s.SlotsHeld) (h : step s = .next t) : t.SlotsHeld := by
  obtain ⟨f, rest, hf, rfl⟩ | ⟨-, rest, hs⟩ | turn := step_of_fill s t l hl h
  · obtain ⟨n, -, nonzero, put⟩ := asked_of_flight s l f hl waits hf
    exact stepFlight_slotsHeld _ f n (withInputs_slotsHeld s rest held) hf put nonzero
  · exact stepFill_slotsHeld _ t l (withInputs_slotsHeld s rest held) hs
  · exact consumerTurn_slotsHeld s t held turn

/-! ### A published PUT makes one slot live (42_filler.md R126) -/

theorem liveSlots_eq_sum (r : Planner) :
    r.liveSlots = ∑ i : SlotIx, if r.nextN[i] = 0 then 0 else 1 := by
  rw [Fin.sum_univ_four]; rfl

theorem liveSlots_le_four (r : Planner) : r.liveSlots ≤ 4 := by
  have atMostOne : ∀ i ∈ (Finset.univ : Finset SlotIx), (if r.nextN[i] = 0 then 0 else 1) ≤ 1 :=
    fun i _ => by split <;> decide
  rw [liveSlots_eq_sum]
  exact Finset.sum_le_card_nsmul Finset.univ _ 1 atMostOne

theorem liveSlots_publish (r : Planner) (t : SlotIx) (n : Word) (free : r.nextN[t] = 0)
    (nonzero : n ≠ 0) : (r.slotWrite .n t n).liveSlots = r.liveSlots + 1 := by
  have slotwise : ∀ i ∈ (Finset.univ : Finset SlotIx), (if (r.nextN.set t n)[i] = 0 then 0 else 1) =
      (if r.nextN[i] = 0 then 0 else 1) + if t = i then 1 else 0 := fun i _ => by
    rw [slot_set]
    by_cases same : t = i
    · subst same
      rw [if_pos rfl, if_neg nonzero, if_pos free, if_pos rfl]
    · rw [if_neg same, if_neg same, Nat.add_zero]
  rw [liveSlots_eq_sum, liveSlots_eq_sum, slotWrite_n_nextN, Finset.sum_congr rfl slotwise,
    Finset.sum_add_distrib, Finset.sum_ite_eq, if_pos (Finset.mem_univ t)]

/-- A PUT past its publishing write: 1, else 0. -/
def Micro.published : Micro → Nat
  | .p6 .. | .p7 .. | .p8 .. => 1
  | _ => 0

/-- The same of what follows a micro-step: a PUT answered `OK` has been published. -/
def After.published : After → Nat
  | .go m => m.published
  | .done rsp => if rsp.status == .ok then 1 else 0

theorem microStep_put_published (cfg : Config) (m : Micro) (n : Word) (r : Planner)
    (put : m.putSteps = some n) (nonzero : n ≠ 0)
    (held : ∀ t, m.freeSlot = some t → r.nextN[t] = 0) :
    (microStep cfg m r).1.liveSlots + m.published =
      r.liveSlots + (microStep cfg m r).2.published := by
  cases m <;> cases put
  case p0 v => rw [microStep_p0 cfg n v r nonzero]; rfl
  case p2 v t =>
    by_cases free : r.nextN[t] = 0
    · rw [microStep_p2_free cfg n v t r free]; rfl
    · rw [microStep_p2_live cfg n v t r free]; rfl
  case p5 v t p => exact liveSlots_publish r t n (held t rfl) nonzero
  all_goals rfl

/-! ### The PUT that is published and not yet counted (42_filler.md R128 L4 to L6) -/

theorem fillPending_of_not_asked (s : State) (h : s.fill.any (·.asked.isSome) = false) :
    s.fillPending = 0 := by
  unfold State.fillPending
  rw [h]
  rfl

theorem fillPending_of_flight (s : State) (l : FillLoop) (n : Word) (f : Flight)
    (hl : s.fill = some l) (ha : l.asked = some n) (hf : s.flightP = some f) :
    s.fillPending = f.micro.published := by
  have asked : s.fill.any (·.asked.isSome) = true := by rw [hl, Option.any_some, ha]; rfl
  unfold State.fillPending
  rw [if_pos asked, microOn_P_of_flight s f hf]
  cases f.micro <;> rfl

theorem fillPending_of_answered (s : State) (l : FillLoop) (n : Word) (hl : s.fill = some l)
    (ha : l.asked = some n) (hf : s.flightP = none) :
    s.fillPending = if s.rspP.any (·.status == .ok) then 1 else 0 := by
  have asked : s.fill.any (·.asked.isSome) = true := by rw [hl, Option.any_some, ha]; rfl
  unfold State.fillPending
  rw [if_pos asked, microOn_P_of_none s hf]

theorem fillPending_of_kept (s t : State) (kept : ProducerKept s t) : t.fillPending = s.fillPending := by
  obtain ⟨fill, flight, rsp⟩ := kept
  have micro : t.microOn .P = s.microOn .P := congrArg (Option.map Flight.micro) flight
  unfold State.fillPending
  rw [fill, rsp, micro]

theorem stepFlight_fillPending (s : State) (l : FillLoop) (n : Word) (f : Flight)
    (hl : s.fill = some l) (ha : l.asked = some n) :
    (s.stepFlight .P f).fillPending = (microStep Config.platform f.micro s.planner).2.published := by
  have hl' : (s.stepFlight .P f).fill = some l := (stepFlight_fill s .P f).trans hl
  rcases hm : microStep Config.platform f.micro s.planner with ⟨r, m | rsp⟩
  · rw [stepFlight_go s .P f m r hm] at hl' ⊢
    exact fillPending_of_flight _ l n ⟨f.word, m⟩ hl' ha rfl
  · rw [stepFlight_done s .P f r rsp hm] at hl' ⊢
    exact fillPending_of_answered _ l n hl' ha rfl

/-! ### Entries counted against slots (42_filler.md R128, 43_phases_and_invariants.md R150) -/

theorem entriesCounted_of_same_fill (s t : State) (h : t.fill = s.fill) : entriesCounted s t = 0 := by
  unfold entriesCounted
  rw [h]
  cases s.fill with
  | none => rfl
  | some l => exact if_neg fun both => both.1 both.2

theorem entriesCounted_of_running (s t : State) (l l' : FillLoop) (hl : s.fill = some l)
    (hl' : t.fill = some l') :
    entriesCounted s t = if l.asked ≠ none ∧ l'.asked = none then 1 else 0 := by
  simp only [entriesCounted, hl, hl']

theorem entriesCounted_of_ended (s t : State) (h : t.fill = none) : entriesCounted s t = 0 := by
  unfold entriesCounted; rw [h]; cases s.fill <;> rfl

/-- The step from `s` to `t` counts an entry only where one was published and not counted before, and publishes
one only in a slot that it makes live; the live slots become fewer only by those it frees. -/
def EntriesPaid (s t : State) : Prop :=
  entriesCounted s t + t.fillPending + s.planner.liveSlots ≤
    s.fillPending + t.planner.liveSlots + slotsFreed s t

theorem stepFlight_entriesPaid (s : State) (l : FillLoop) (f : Flight) (rest : List Event)
    (hl : s.fill = some l) (waits : s.FillWaits) (held : s.SlotsHeld) (hf : s.flightP = some f) :
    EntriesPaid s ((s.withInputs rest).stepFlight .P f) := by
  obtain ⟨n, ha, nonzero, put⟩ := asked_of_flight s l f hl waits hf
  have noneCounted := entriesCounted_of_same_fill s _ (stepFlight_fill (s.withInputs rest) .P f)
  have balance := microStep_put_published Config.platform f.micro n s.planner put nonzero
    fun t => held.free f t hf
  have before := fillPending_of_flight s l n f hl ha hf
  have after := stepFlight_fillPending (s.withInputs rest) l n f hl ha
  have registers := stepFlight_planner (s.withInputs rest) .P f
  have same : (s.withInputs rest).planner = s.planner := rfl
  rw [same] at after registers
  rw [EntriesPaid, noneCounted, before, after, registers]
  omega

theorem stepFill_entriesPaid (s t : State) (l : FillLoop) (rest : List Event) (hl : s.fill = some l)
    (idle : s.flightP = none) (h : (s.withInputs rest).stepFill l = .next t) : EntriesPaid s t := by
  have registers : t.planner = s.planner := stepFill_planner (s.withInputs rest) t l h
  suffices paid : entriesCounted s t + t.fillPending ≤ s.fillPending by
    rw [EntriesPaid, registers]; omega
  obtain ⟨d, -, ⟨ha, -, -, rfl⟩ | ⟨-, -, rfl⟩ | ⟨n, ha, ok, rfl⟩ | ⟨n, -, -, rfl⟩⟩ :=
    stepFill_next _ t l h
  · rw [entriesCounted_of_running s _ l _ hl rfl, if_neg fun both => both.1 ha,
      fillPending_of_flight _ _ _ _ rfl rfl rfl]
    exact Nat.zero_le _
  · rw [entriesCounted_of_ended s _ rfl, fillPending_of_not_asked _ rfl]
    exact Nat.zero_le _
  · have asked : l.asked ≠ none := ne_of_eq_of_ne ha nofun
    rw [entriesCounted_of_running s _ l _ hl rfl, if_pos ⟨asked, rfl⟩, fillPending_of_not_asked _ rfl,
      fillPending_of_answered s l n hl ha idle]
    exact (if_pos ok).ge
  · rw [entriesCounted_of_ended s _ rfl, fillPending_of_not_asked _ rfl]
    exact Nat.zero_le _

theorem consumerTurn_entriesPaid (s t : State) (turn : ConsumerTurn s t) : EntriesPaid s t := by
  obtain ⟨kept, -⟩ := turn
  obtain ⟨fill, -, -⟩ := id kept
  rw [EntriesPaid, entriesCounted_of_same_fill s t fill, fillPending_of_kept s t kept, slotsFreed]
  omega

theorem step_entriesPaid (s t : State) (l : FillLoop) (hl : s.fill = some l) (waits : s.FillWaits)
    (held : s.SlotsHeld) (h : step s = .next t) : EntriesPaid s t := by
  obtain ⟨f, rest, hf, rfl⟩ | ⟨idle, rest, hs⟩ | turn := step_of_fill s t l hl h
  · exact stepFlight_entriesPaid s l f rest hl waits held hf
  · exact stepFill_entriesPaid s t l rest hl idle hs
  · exact consumerTurn_entriesPaid s t turn

theorem alongRun_of_next (count : State → State → Nat) (k : Nat) (s t : State)
    (h : step s = .next t) : alongRun count (k + 1) s = count s t + alongRun count k t := by
  rw [alongRun, h]

/-- While a FILL call runs, what each step counts is paid for; at the end at most four slots are live. -/
theorem alongRun_entries_le (k : Nat) (s : State) (waits : s.FillWaits) (held : s.SlotsHeld)
    (running : ∀ (j : Nat) (t : State), j < k → runFor j s = .next t → t.fill ≠ none) :
    alongRun entriesCounted k s + s.planner.liveSlots ≤
      4 + s.fillPending + alongRun slotsFreed k s := by
  have four := liveSlots_le_four s.planner
  induction k generalizing s with
  | zero => simp only [alongRun]; omega
  | succ k ih =>
    obtain ⟨l, hl⟩ := Option.ne_none_iff_exists'.mp (running 0 s (Nat.succ_pos k) rfl)
    cases h : step s with
    | next t =>
      have paid : EntriesPaid s t := step_entriesPaid s t l hl waits held h
      have later := ih t (step_fillWaits s t waits h) (step_slotsHeld s t l hl waits held h)
        (fun j u hj hu => running (j + 1) u (Nat.succ_lt_succ hj) ((runFor_of_next j s t h).trans hu))
        (liveSlots_le_four t.planner)
      rw [EntriesPaid] at paid
      rw [alongRun_of_next _ k s t h, alongRun_of_next _ k s t h]
      omega
    | fault f => simp only [alongRun, h]; omega
    | refused r => simp only [alongRun, h]; omega

/-- Settles O59: where no PUT is asked for, nothing is pending. -/
theorem fillInsertsAtMostTheFreeAndFreedSlots :
    Obligations.FillInsertsAtMostTheFreeAndFreedSlots := by
  intro k s l ring hl ha idle running
  have waits : s.FillWaits := (fillWaits_iff_idle s l hl ha).mpr idle
  have nonePending : s.fillPending = 0 :=
    fillPending_of_not_asked s (by rw [hl, Option.any_some, ha]; rfl)
  have bound := alongRun_entries_le k s waits (slotsHeld_of_ringInv s ring) running
  constructor <;> omega

end Sys2Proof.Machine
end

section
/-! SUPPORT. What every step keeps (spec/43_phases_and_invariants.md, spec/20_memory.md R62): a property of the
machine's state that holds on when a command is taken and after each of its micro-steps holds on along every
interleaving. The contract of INIT (70_reset_and_hazards.md R184, R186) is the first such property. -/

namespace Sys2Proof.Machine

/-! ### The commands' rules by name (42_filler.md, 40_queue.md, 41_velocity_engine.md) -/

/-- What a command does to the registers, and its response. -/
def ruleOf : Instr → Planner → Planner × Response
  | .init => Planner.init Config.platform
  | .put steps speed => Planner.put steps speed
  | .full => Planner.full
  | .empty => Planner.empty
  | .get clip => Planner.get Config.platform clip
  | .beginDda target => Planner.beginDda target
  | .reserved0 | .reserved7 | .reserved8toF _ => fun r => (r, failWith .err)

/-- A whole command is the transaction of its rule. -/
theorem exec_eq_perform (i : Instr) (s : State) : exec i s = s.perform i (ruleOf i) := by
  cases i with
  | init | put | full | empty | get | beginDda => rfl
  | reserved0 | reserved7 | reserved8toF => exact (perform_of_reserved s _ rfl _).symm

/-- A command's rule is its micro-steps, one after another. -/
theorem runMicro_eq_rule (i : Instr) (m : Micro) (r : Planner) (first : Micro.first i = some m) :
    runMicro Config.platform 14 m r = ((ruleOf i r).1, some (ruleOf i r).2) := by
  cases i with
  | init => cases first; exact runMicro_init _ r
  | put steps speed => cases first; exact runMicro_put _ steps speed r
  | full => cases first; exact runMicro_full _ r
  | empty => cases first; exact runMicro_empty _ r
  | get clip => cases first; exact runMicro_get _ clip r
  | beginDda target => cases first; exact runMicro_beginDda _ target r
  | reserved0 | reserved7 | reserved8toF => cases first

/-- A whole command is answered `ERR` on a port that does not take it, or it is accepted on its port and
performed by its rule. -/
theorem exec_by_rule (i : Instr) (s t : State) (h : exec i s = .next t) :
    (acceptedOn i s.port = false ∧ t = s.answer s.port (failWith .err)) ∨
    (s.admission s.port i = .accept ∧
      t = s.complete s.port (isInit i) (ruleOf i s.planner).1 (ruleOf i s.planner).2) := by
  rw [exec_eq_perform] at h
  obtain ⟨reject, answered⟩ | performed := perform_next s t i (ruleOf i) h
  · exact .inl ⟨(admission_reject s s.port i reject).2, answered⟩
  · exact .inr performed

/-! ### What a micro-step does to the flight on its port (10_state.md R35) -/

/-- The micro-step that follows, if the command goes on. -/
def After.next : After → Option Micro
  | .go m => some m
  | .done _ => none

theorem stepFlight_microOn_self (s : State) (p : Port) (f : Flight) :
    (s.stepFlight p f).microOn p = (microStep Config.platform f.micro s.planner).2.next := by
  rcases hm : microStep Config.platform f.micro s.planner with ⟨r, m | rsp⟩
  · rw [stepFlight_go s p f m r hm]; cases p <;> rfl
  · rw [stepFlight_done s p f r rsp hm]; cases p <;> rfl

theorem stepFlight_flightC (s : State) (f : Flight) : (s.stepFlight .P f).flightC = s.flightC := by
  unfold State.stepFlight; split <;> rfl

theorem stepFlight_flightP (s : State) (f : Flight) : (s.stepFlight .C f).flightP = s.flightP := by
  unfold State.stepFlight; split <;> rfl

/-- Only INIT's last micro-step makes the machine initialised. -/
theorem stepFlight_inited (s : State) (p : Port) (f : Flight) (hm : f.micro.isInit = false) :
    (s.stepFlight p f).inited = s.inited := by
  unfold State.stepFlight
  split
  · exact setFlight_inited _ _ _
  · rw [complete_inited, hm, Bool.or_false, setFlight_inited]

theorem microOn_of_flight (s : State) (p : Port) (f : Flight) (hf : s.flight p = some f) :
    s.microOn p = some f.micro :=
  congrArg (Option.map Flight.micro) hf

theorem flight_eq_none_iff (s : State) (p : Port) : s.flight p = none ↔ s.microOn p = none :=
  Option.map_eq_none_iff.symm

theorem initInFlight_eq (s : State) : s.initInFlight = (s.microOn .P).any Micro.isInit := by
  cases h : s.flightP <;> simp [State.initInFlight, State.microOn, h]

theorem isInit_go (cfg : Config) (m m' : Micro) (r : Planner) (h : (microStep cfg m r).2 = .go m') :
    m'.isInit = m.isInit := by
  rw [Micro.isInit, Micro.isInit, microStep_go_command cfg m m' r h]

/-! ### The induction over an interleaving (20_memory.md R62) -/

/-- The same registers, the same progress of INIT and the same transactions in flight. -/
structure SameMachine (s t : State) : Prop where
  planner : t.planner = s.planner
  inited : t.inited = s.inited
  flightP : t.flightP = s.flightP
  flightC : t.flightC = s.flightC

theorem SameMachine.microOn {s t : State} (same : SameMachine s t) (p : Port) :
    t.microOn p = s.microOn p := by
  cases p with
  | P => exact congrArg (Option.map Flight.micro) same.flightP
  | C => exact congrArg (Option.map Flight.micro) same.flightC

theorem SameMachine.initInFlight {s t : State} (same : SameMachine s t) :
    t.initInFlight = s.initInFlight := by
  rw [initInFlight_eq, initInFlight_eq, same.microOn]

/-- Port `p` may take command `i`: nothing is in flight there, it accepts the command, and the contract of
INIT holds (30_encoding.md R70, R73; 70_reset_and_hazards.md R184, R186). -/
structure State.Takes (s : State) (p : Port) (i : Instr) : Prop where
  idle : s.flight p = none
  accepted : acceptedOn i p = true
  alone : isInit i = true → s.flightC = none
  running : isInit i = false → s.inited = true ∧ s.initInFlight = false

theorem takes_of_accept (s : State) (p : Port) (i : Instr) (h : s.admission p i = .accept) :
    s.Takes p i := by
  obtain ⟨free, accepted, alone, running⟩ := admission_accept s p i h
  exact ⟨(idleOn_of_not_busy s p free).1, accepted, alone, running⟩

/-- The property `Inv` speaks of the machine alone, and neither the taking of a command nor a micro-step ends
it. -/
structure KeptByMicroSteps (Inv : State → Prop) : Prop where
  same : ∀ s t, SameMachine s t → Inv s → Inv t
  launch : ∀ s p i w m, s.Takes p i → Micro.first i = some m → Inv s → Inv (s.launch p w m)
  micro : ∀ s p f, s.flight p = some f → Inv s → Inv (s.stepFlight p f)

theorem answer_same (s : State) (p : Port) (rsp : Response) : SameMachine s (s.answer p rsp) := by
  constructor <;> simp

section
variable {Inv : State → Prop} (kept : KeptByMicroSteps Inv)
include kept

/-- The micro-steps of a flight one after another, to its response: each keeps the property. -/
theorem complete_of_kept (k : Nat) (s : State) (p : Port) (w : CmdWord) (m : Micro) (r : Planner)
    (rsp : Response) (hf : s.flight p = some ⟨w, m⟩)
    (run : runMicro Config.platform k m s.planner = (r, some rsp)) (inv : Inv s) :
    Inv ((s.setFlight p none).complete p m.isInit r rsp) := by
  induction k generalizing s m with
  | zero => cases run
  | succ k ih =>
    have next := kept.micro s p ⟨w, m⟩ hf inv
    rcases hm : microStep Config.platform m s.planner with ⟨r', m' | rsp'⟩
    · rw [stepFlight_go s p ⟨w, m⟩ m' r' hm] at next
      rw [runMicro_go _ _ _ _ _ _ hm] at run
      have landed := ih _ m' (by cases p <;> rfl) (by simpa using run) next
      rw [isInit_go _ m m' _ (congrArg Prod.snd hm)] at landed
      cases p <;> exact landed
    · rw [runMicro_done _ _ _ _ _ _ hm] at run
      cases run
      exact stepFlight_done s p ⟨w, m⟩ r rsp hm ▸ next

/-- A whole command is launched and run by its micro-steps, with nothing between them. -/
theorem exec_of_kept (i : Instr) (s t : State) (inv : Inv s) (h : exec i s = .next t) : Inv t := by
  obtain ⟨-, rfl⟩ | ⟨accept, rfl⟩ := exec_by_rule i s t h
  · exact kept.same s _ (answer_same s _ _) inv
  have takes := takes_of_accept s s.port i accept
  cases first : Micro.first i with
  | none => cases (acceptedOn_of_reserved i s.port first).symm.trans takes.accepted
  | some m =>
    have run := runMicro_eq_rule i m s.planner first
    have launched := kept.launch s s.port i 0 m takes first inv
    have landed := complete_of_kept kept 14 _ s.port 0 m _ _ (launch_flight_self s s.port 0 m)
      (by rw [launch_planner]; exact run) launched
    rw [first_isInit i m first] at landed
    have idle := takes.idle
    refine kept.same _ _ ?_ landed
    cases hp : s.port <;> rw [hp] at idle <;> constructor <;> simp <;> exact idle

theorem stepFill_of_kept (s t : State) (l : FillLoop) (idle : s.flightP = none) (inv : Inv s)
    (h : s.stepFill l = .next t) : Inv t := by
  obtain ⟨d, -, ⟨-, -, inited, rfl⟩ | ⟨-, -, rfl⟩ | ⟨n, -, -, rfl⟩ | ⟨n, -, -, rfl⟩⟩ :=
    stepFill_next s t l h
  · have noInit : s.initInFlight = false := by rw [State.initInFlight, idle]; rfl
    obtain ⟨n, v⟩ := fillEntry Config.platform d
    have issued := kept.launch s .P (.put n v) (encode (.put n v)) (.p0 n v)
      ⟨idle, rfl, nofun, fun _ => ⟨inited, noInit⟩⟩ rfl inv
    exact kept.same (s.launch .P (encode (.put n v)) (.p0 n v)) _ ⟨rfl, rfl, rfl, rfl⟩ issued
  all_goals exact kept.same s _ ⟨rfl, rfl, rfl, rfl⟩ inv

/-- Every step of every interleaving keeps what its commands' beginnings and micro-steps keep. -/
theorem step_of_kept (s t : State) (inv : Inv s) (h : step s = .next t) : Inv t := by
  have taken (u : State) (same : SameMachine s u) : Inv u := kept.same s u same inv
  have withInputs (rest : List Event) : Inv (s.withInputs rest) := taken _ ⟨rfl, rfl, rfl, rfl⟩
  obtain ⟨p, w, rest, -, he⟩ | ⟨p, w, rest, -, hw⟩ | ⟨p, rest, -, ha⟩ | ⟨ref, rest, -, hf⟩ |
    ⟨n, v, rest, -, rfl⟩ | ⟨ref, n, v, rest, -, rfl⟩ := step_next s t h
  · exact exec_of_kept kept _ (s.taking p rest) t (taken _ ⟨rfl, rfl, rfl, rfl⟩) he
  · obtain ⟨-, rfl, -⟩ | ⟨m, first, accept, rfl⟩ := startCommand_next p w _ t hw
    · exact kept.same _ _ (answer_same _ p _) (withInputs rest)
    · exact kept.launch _ p _ w m (takes_of_accept _ p _ accept) first (withInputs rest)
  · obtain ⟨f, flight, rfl⟩ | ⟨-, idle, l, -, hl⟩ | ⟨-, rfl⟩ := advance_next p _ t ha
    · exact kept.micro _ p f flight (withInputs rest)
    · exact stepFill_of_kept kept _ t l idle (withInputs rest) hl
    · exact withInputs rest
  · obtain ⟨-, -, -, rfl⟩ := startFill_next ref _ t hf
    exact taken _ ⟨rfl, rfl, rfl, rfl⟩
  · exact taken _ ⟨rfl, rfl, rfl, rfl⟩
  · exact taken _ ⟨rfl, rfl, rfl, rfl⟩

end

/-! ### The contract of INIT (70_reset_and_hazards.md R184, R186) -/

/-- A port is at the first micro-step of the commands it accepts only (30_encoding.md R74). -/
theorem ofPort_first (i : Instr) (m : Micro) (p : Port) (first : Micro.first i = some m) :
    m.ofPort p = acceptedOn i p := by
  cases i <;> cases first <;> cases p <;> rfl

theorem isInit_of_accepted_C (i : Instr) (accepted : acceptedOn i .C = true) : isInit i = false := by
  cases i with
  | init => cases accepted
  | _ => rfl

theorem isInit_of_ofPort_C (m : Micro) (onC : m.ofPort .C = true) : m.isInit = false := by
  cases hc : m.command <;> simp [Micro.isInit, Micro.ofPort, hc] at onC ⊢

theorem initInFlight_of_microOn (s : State) (m : Micro) (hm : s.microOn .P = some m) :
    s.initInFlight = m.isInit := by
  rw [initInFlight_eq, hm]; rfl

theorem launch_orderly (s : State) (p : Port) (i : Instr) (w : CmdWord) (m : Micro)
    (takes : s.Takes p i) (first : Micro.first i = some m) (orderly : s.Orderly) :
    (s.launch p w m).Orderly := by
  have onPort : m.ofPort p = true := (ofPort_first i m p first).trans takes.accepted
  cases p with
  | P =>
    refine ⟨fun m' hm => (by cases hm; exact onPort), orderly.portC, fun init => ?_, fun fresh => ?_⟩
    · exact takes.alone ((first_isInit i m first).symm.trans init)
    · cases init : isInit i with
      | true => exact ⟨takes.alone init, .inr ((first_isInit i m first).trans init)⟩
      | false => cases fresh.symm.trans (takes.running init).1
  | C =>
    obtain ⟨inited, noInit⟩ := takes.running (isInit_of_accepted_C i takes.accepted)
    exact ⟨orderly.portP, fun m' hm => (by cases hm; exact onPort),
      fun init => (by cases noInit.symm.trans init), fun fresh => (by cases fresh.symm.trans inited)⟩

/-- In the transaction in flight, INIT's micro-steps are alone, and any other's come after the first INIT. -/
theorem flight_cases (s : State) (p : Port) (f : Flight) (orderly : s.Orderly)
    (hf : s.flight p = some f) :
    (p = .P ∧ f.micro.isInit = true ∧ s.flightC = none) ∨
    (f.micro.isInit = false ∧ f.micro.ofPort p = true ∧ s.inited = true ∧ s.initInFlight = false) := by
  have micro := microOn_of_flight s p f hf
  cases p with
  | P =>
    have init := initInFlight_of_microOn s f.micro micro
    cases hm : f.micro.isInit with
    | true => exact .inl ⟨rfl, rfl, orderly.initAlone (init.trans hm)⟩
    | false =>
      refine .inr ⟨rfl, orderly.portP _ micro, ?_, init.trans hm⟩
      by_contra fresh
      obtain ⟨-, idle | inInit⟩ := orderly.beforeInit (Bool.eq_false_iff.mpr fresh)
      · cases hf.symm.trans idle
      · cases hm.symm.trans (init.symm.trans inInit)
  | C =>
    have onC := orderly.portC _ micro
    have noInit : s.initInFlight = false := by
      by_contra init
      cases hf.symm.trans (orderly.initAlone (Bool.not_eq_false _ ▸ init))
    refine .inr ⟨isInit_of_ofPort_C _ onC, onC, ?_, noInit⟩
    by_contra fresh
    obtain ⟨idle, -⟩ := orderly.beforeInit (Bool.eq_false_iff.mpr fresh)
    cases hf.symm.trans idle

/-- A micro-step of a command other than INIT leaves the machine initialised and no INIT in flight. -/
theorem stepFlight_running (s : State) (p : Port) (f : Flight) (hm : f.micro.isInit = false)
    (inited : s.inited = true) (noInit : s.initInFlight = false) :
    (s.stepFlight p f).inited = true ∧ (s.stepFlight p f).initInFlight = false := by
  refine ⟨(stepFlight_inited s p f hm).trans inited, ?_⟩
  cases p with
  | P =>
    rw [initInFlight_eq, stepFlight_microOn_self]
    cases h : (microStep Config.platform f.micro s.planner).2 with
    | go m' => exact (isInit_go _ _ _ _ h).trans hm
    | done rsp => rfl
  | C => rw [State.initInFlight, stepFlight_flightP]; exact noInit

theorem orderly_of_running (s : State) (portP : ∀ m, s.microOn .P = some m → m.ofPort .P = true)
    (portC : ∀ m, s.microOn .C = some m → m.ofPort .C = true) (inited : s.inited = true)
    (noInit : s.initInFlight = false) : s.Orderly :=
  ⟨portP, portC, fun init => (by cases noInit.symm.trans init),
    fun fresh => (by cases fresh.symm.trans inited)⟩

theorem next_ofPort (cfg : Config) (p : Port) (m m' : Micro) (r : Planner) (onPort : m.ofPort p = true)
    (h : (microStep cfg m r).2.next = some m') : m'.ofPort p = true := by
  cases hm : (microStep cfg m r).2 with
  | go m'' =>
    rw [hm] at h
    cases h
    exact (ofPort_go cfg p m m' r hm).trans onPort
  | done rsp => rw [hm] at h; cases h

theorem ofPort_P_of_isInit (m : Micro) (init : m.isInit = true) : m.ofPort .P = true := by
  cases hc : m.command <;> simp [Micro.isInit, Micro.ofPort, hc] at init ⊢

theorem microOn_stepFlight_other (s : State) (p q : Port) (f : Flight) (h : q ≠ p) :
    (s.stepFlight p f).microOn q = s.microOn q := by
  cases p with
  | P =>
    cases q with
    | P => exact absurd rfl h
    | C => exact congrArg (Option.map Flight.micro) (stepFlight_flightC s f)
  | C =>
    cases q with
    | P => exact congrArg (Option.map Flight.micro) (stepFlight_flightP s f)
    | C => exact absurd rfl h

/-- INIT stays in flight, or it has been done and nothing is in flight on port P. -/
theorem stepFlight_init (s : State) (f : Flight) (init : f.micro.isInit = true) :
    (s.stepFlight .P f).initInFlight = true ∨
    ((s.stepFlight .P f).inited = true ∧ (s.stepFlight .P f).initInFlight = false) := by
  rcases hm : microStep Config.platform f.micro s.planner with ⟨r, m | rsp⟩
  · rw [stepFlight_go s .P f m r hm]
    exact .inl ((isInit_go _ _ _ _ (congrArg Prod.snd hm)).trans init)
  · rw [stepFlight_done s .P f r rsp hm, complete_inited, init, Bool.or_true]
    exact .inr ⟨rfl, rfl⟩

theorem stepFlight_orderly (s : State) (p : Port) (f : Flight) (hf : s.flight p = some f)
    (orderly : s.Orderly) : (s.stepFlight p f).Orderly := by
  obtain ⟨rfl, init, alone⟩ | ⟨notInit, onPort, inited, noInit⟩ := flight_cases s p f orderly hf
  · have noC : (s.stepFlight .P f).flightC = none := (stepFlight_flightC s f).trans alone
    have after := stepFlight_init s f init
    exact {
      portP := fun m h => next_ofPort _ .P f.micro m s.planner (ofPort_P_of_isInit _ init)
        (stepFlight_microOn_self s .P f ▸ h)
      portC := fun m h => by cases h.symm.trans ((flight_eq_none_iff _ .C).mp noC)
      initAlone := fun _ => noC
      beforeInit := fun fresh =>
        ⟨noC, .inr (after.resolve_right fun done => by cases fresh.symm.trans done.1)⟩ }
  · obtain ⟨inited', noInit'⟩ := stepFlight_running s p f notInit inited noInit
    have ports (q : Port) (m : Micro) (h : (s.stepFlight p f).microOn q = some m) :
        m.ofPort q = true := by
      by_cases same : q = p
      · subst same
        exact next_ofPort _ q f.micro m s.planner onPort (stepFlight_microOn_self s q f ▸ h)
      · rw [microOn_stepFlight_other s p q f same] at h
        cases q with
        | P => exact orderly.portP m h
        | C => exact orderly.portC m h
    exact orderly_of_running _ (ports .P) (ports .C) inited' noInit'

theorem same_orderly (s t : State) (same : SameMachine s t) (orderly : s.Orderly) : t.Orderly where
  portP m h := orderly.portP m (same.microOn .P ▸ h)
  portC m h := orderly.portC m (same.microOn .C ▸ h)
  initAlone init := same.flightC.trans (orderly.initAlone (same.initInFlight ▸ init))
  beforeInit fresh := by
    rw [same.flightC, same.flightP, same.initInFlight]
    exact orderly.beforeInit (same.inited ▸ fresh)

/-- The contract of INIT is kept by every step. -/
theorem orderly_kept : KeptByMicroSteps State.Orderly where
  same := same_orderly
  launch s p i w m := launch_orderly s p i w m
  micro := stepFlight_orderly

end Sys2Proof.Machine
end

section
/-! SUPPORT. The flag (spec/43_phases_and_invariants.md R154) and the floor (R156) at every step of every
interleaving: both are properties that the taking of a command and each micro-step keep. -/

namespace Sys2Proof.Machine

/-! ### The flag (R154) -/

/-- The flag as it must be when the consumer is at the micro-step `o`, if it is at one. -/
def flagAt (r : Planner) (o : Option Micro) : Prop := o.elim r.flagRight (flagDuring r)

theorem flagAt_of_flagInv (s : State) (inv : s.FlagInv) (inited : s.inited = true)
    (noInit : s.initInFlight = false) : flagAt s.planner (s.microOn .C) := by
  have flag := inv.flag inited noInit
  revert flag
  cases s.microOn .C <;> exact id

/-- With no INIT in flight, the flag invariant is what `flagAt` says. -/
theorem flagInv_of_noInit (s : State) (orderly : s.Orderly) (noInit : s.initInFlight = false)
    (flag : flagAt s.planner (s.microOn .C)) : s.FlagInv where
  toOrderly := orderly
  flag _ _ := by
    revert flag
    cases s.microOn .C <;> exact id
  flagInInit := by
    rw [initInFlight_eq] at noInit
    split
    case h_3 => trivial
    all_goals rename_i hm; rw [hm] at noInit; cases noInit

theorem flagAt_congr (r r' : Planner) (o : Option Micro) (c : r'.currC = r.currC)
    (e : r'.endC = r.endC) (a : r'.accel = r.accel) (flag : flagAt r o) : flagAt r' o := by
  cases o with
  | none => simpa only [flagAt, Option.elim, Planner.flagRight, c, e, a] using flag
  | some m =>
    cases m <;> simpa only [flagAt, Option.elim, flagDuring, Planner.flagRight, c, e, a] using flag

/-- Each micro-step of the consumer leaves the flag as the next one needs it: a write of `curr_c` or `end_c`
is followed by the write of `accel` (41_velocity_engine.md R105, R107; 42_filler.md R124). -/
theorem flagAt_next (cfg : Config) (m : Micro) (r : Planner) (onC : m.ofPort .C = true)
    (flag : flagDuring r m) : flagAt (microStep cfg m r).1 (microStep cfg m r).2.next := by
  cases m
  case i1 | i2 | i3 | i4 | i5 | p0 | p1 | p2 | p3 | p4 | p5 | p6 | p7 | p8 => cases onC
  case b2 target h =>
    by_cases free : r.nextN[h] = 0
    · rw [microStep_b2_free cfg target h r free]; exact flag
    · rw [microStep_b2_live cfg target h r free]; exact flag
  case g2 clip h =>
    by_cases free : r.nextN[h] = 0
    · rw [microStep_g2_free cfg clip h r free]; exact flag
    · rw [microStep_g2_live cfg clip h r free]; exact flag
  case b3 => rfl
  case b4 target h n => exact congrArg (accelFlag r.currC) (Eq.symm flag)
  case g4 => exact ⟨rfl, flag⟩
  case g5 l => exact ⟨rfl, flag.1⟩
  case g6 l =>
    obtain ⟨c, e⟩ := flag
    exact ⟨c, e, congrArg₂ accelFlag c.symm e.symm⟩
  case g7 l =>
    by_cases last : l.n = 1
    · rw [microStep_g7_last cfg l r last]; exact flag
    · rw [microStep_g7_more cfg l r last]; exact flag.2.2
  case g10 l h' =>
    by_cases free : r.nextN[h'] = 0
    · rw [microStep_g10_free cfg l h' r free]; exact flag.2.2
    · rw [microStep_g10_live cfg l h' r free]; exact flag
  case g12 => exact ⟨flag.1, rfl⟩
  case g13 l h' n2 dc =>
    obtain ⟨c, e⟩ := flag
    exact congrArg₂ accelFlag c.symm e.symm
  all_goals exact flag

/-- The producer's micro-steps but INIT's write none of `curr_c`, `end_c` and `accel` (60_exceptions.md
R169). -/
theorem microStep_onP_velocity (cfg : Config) (m : Micro) (r : Planner) (onP : m.ofPort .P = true)
    (notInit : m.isInit = false) :
    (microStep cfg m r).1.currC = r.currC ∧ (microStep cfg m r).1.endC = r.endC ∧
    (microStep cfg m r).1.accel = r.accel := by
  cases m
  case i1 | i2 | i3 | i4 | i5 => cases notInit
  case b1 | b2 | b3 | b4 | b5 | g1 | g2 | g3 | g4 | g5 | g6 | g7 | g8 | g9 | g10 | g11 | g12 | g13 |
    g14 => cases onP
  all_goals exact ⟨rfl, rfl, rfl⟩

/-- INIT sets the flag right before it ends: I3 makes the speeds equal, I4 clears `accel`. -/
theorem stepFlight_init_flagInv (s : State) (f : Flight) (hf : s.flightP = some f)
    (init : f.micro.isInit = true) (alone : s.flightC = none) (inv : s.FlagInv) :
    (s.stepFlight .P f).FlagInv := by
  have orderly := stepFlight_orderly s .P f hf inv.toOrderly
  have noC := (flight_eq_none_iff s .C).mp alone
  have clause := inv.flagInInit
  rw [microOn_P_of_flight s f hf] at clause
  obtain ⟨w, m⟩ := f
  cases m <;> cases init
  case i3 => exact ⟨orderly, nofun, rfl⟩
  case i4 =>
    have equal : s.planner.currC = s.planner.endC := clause
    exact ⟨orderly, nofun, (decide_eq_false (equal ▸ BitVec.lt_irrefl _)).symm⟩
  case i5 =>
    have flag : flagAt s.planner (s.microOn .C) := by rw [noC]; exact clause
    exact flagInv_of_noInit _ orderly rfl flag
  all_goals exact ⟨orderly, nofun, trivial⟩

theorem stepFlight_flagInv (s : State) (p : Port) (f : Flight) (hf : s.flight p = some f)
    (inv : s.FlagInv) : (s.stepFlight p f).FlagInv := by
  obtain ⟨rfl, init, alone⟩ | ⟨notInit, onPort, inited, noInit⟩ :=
    flight_cases s p f inv.toOrderly hf
  · exact stepFlight_init_flagInv s f hf init alone inv
  obtain ⟨-, noInit'⟩ := stepFlight_running s p f notInit inited noInit
  have flag := flagAt_of_flagInv s inv inited noInit
  refine flagInv_of_noInit _ (stepFlight_orderly s p f hf inv.toOrderly) noInit' ?_
  rw [stepFlight_planner]
  cases p with
  | P =>
    obtain ⟨c, e, a⟩ := microStep_onP_velocity Config.platform f.micro s.planner onPort notInit
    rw [microOn_stepFlight_other s .P .C f nofun]
    exact flagAt_congr _ _ _ c e a flag
  | C =>
    rw [microOn_of_flight s .C f hf] at flag
    rw [stepFlight_microOn_self]
    exact flagAt_next _ f.micro s.planner onPort flag

/-- A command begins with the flag right, and INIT with nothing to say of it. -/
theorem launch_flagInv (s : State) (p : Port) (i : Instr) (w : CmdWord) (m : Micro)
    (takes : s.Takes p i) (first : Micro.first i = some m) (inv : s.FlagInv) :
    (s.launch p w m).FlagInv := by
  have orderly := launch_orderly s p i w m takes first inv.toOrderly
  cases p with
  | P =>
    refine ⟨orderly, fun inited noInit => ?_, ?_⟩
    · have notInit : isInit i = false := (first_isInit i m first).symm.trans noInit
      exact inv.flag inited (takes.running notInit).2
    · cases i <;> cases first <;> trivial
  | C =>
    obtain ⟨inited, noInit⟩ := takes.running (isInit_of_accepted_C i takes.accepted)
    have flag := flagAt_of_flagInv s inv inited noInit
    rw [(flight_eq_none_iff s .C).mp takes.idle] at flag
    refine flagInv_of_noInit _ orderly noInit ?_
    cases i <;> cases first <;> exact flag

theorem same_flagInv (s t : State) (same : SameMachine s t) (inv : s.FlagInv) : t.FlagInv where
  toOrderly := same_orderly s t same inv.toOrderly
  flag := by
    rw [same.inited, same.initInFlight, same.microOn, same.planner]
    exact inv.flag
  flagInInit := by
    rw [same.microOn, same.planner]
    exact inv.flagInInit

theorem flagInv_kept : KeptByMicroSteps State.FlagInv where
  same := same_flagInv
  launch s p i w m := launch_flagInv s p i w m
  micro := stepFlight_flagInv

/-- Settles O36: every micro-step leaves the flag as the next one needs it, and the other agent's none of the
three registers it speaks of. -/
theorem everyStepKeepsTheFlag : Obligations.EveryStepKeepsTheFlag :=
  step_of_kept flagInv_kept

/-! ### The floor (R156) -/

theorem le_raiseTo (lo r : Word) : lo ≤ raiseTo lo r := by
  rw [BitVec.le_def, raiseTo_toNat]
  exact Nat.le_max_right _ _

/-- What GET computes is raised to `C_MIN` (41_velocity_engine.md R110). -/
theorem le_velocityUpdate (lo c e : Word) (dir : Bool) (a : Word) (clip : Bool) :
    lo ≤ velocityUpdate lo c e dir a clip := le_raiseTo lo _

/-- Outside INIT, only G5 writes `curr_c`. -/
theorem microStep_currC (cfg : Config) (m : Micro) (r : Planner) (notInit : m.isInit = false) :
    (microStep cfg m r).1.currC = r.currC ∨ ∃ l, m = .g5 l ∧ (microStep cfg m r).1.currC = l.c' := by
  cases m
  case i3 => cases notInit
  case g5 l => exact .inr ⟨l, rfl, rfl⟩
  case g7 l => left; simp only [microStep]; split <;> rfl
  all_goals exact .inl rfl

/-- The value a GET is about to write at G5 is one it has computed at G4. -/
theorem next_g5_floor (cfg : Config) (m : Micro) (r : Planner) (l : GetLocals)
    (h : (microStep cfg m r).2.next = some (.g5 l)) : cfg.cMin ≤ l.c' := by
  cases m
  case g4 => cases h; exact le_velocityUpdate _ _ _ _ _ _
  case p0 | p2 | b2 | g2 | g7 | g10 => simp only [microStep] at h; split at h <;> cases h
  all_goals cases h

/-- INIT writes `C_START` to `curr_c`, which is not below `C_MIN` (00_scope.md R10). -/
theorem stepFlight_init_floorInv (s : State) (f : Flight) (hf : s.flightP = some f)
    (init : f.micro.isInit = true) (inv : s.FloorInv) :
    (s.stepFlight .P f).FloorInv := by
  have orderly := stepFlight_orderly s .P f hf inv.toOrderly
  have noGet (l : GetLocals) (h : s.microOn .C = some (.g5 l)) : Config.platform.cMin ≤ l.c' :=
    inv.floorInGet l h
  have start := cMin_le_cStart Config.platform
  have clause := inv.floorInInit
  rw [microOn_P_of_flight s f hf] at clause
  obtain ⟨w, m⟩ := f
  cases m <;> cases init
  case i3 => exact ⟨orderly, fun _ => start, start, noGet⟩
  case i4 => exact ⟨orderly, fun _ => clause, clause, noGet⟩
  case i5 => exact ⟨orderly, fun _ => clause, trivial, noGet⟩
  all_goals exact ⟨orderly, inv.floor, trivial, noGet⟩

/-- Where `curr_c` is not below the floor, the invariant is about what a GET is about to write there. -/
theorem floorInv_of_floor (s : State) (orderly : s.Orderly)
    (floor : Config.platform.cMin ≤ s.planner.currC)
    (floorInGet : ∀ l, s.microOn .C = some (.g5 l) → Config.platform.cMin ≤ l.c') : s.FloorInv where
  toOrderly := orderly
  floor _ := floor
  floorInInit := by
    split
    · exact floor
    · exact floor
    · trivial
  floorInGet := floorInGet

theorem stepFlight_floorInv (s : State) (p : Port) (f : Flight) (hf : s.flight p = some f)
    (inv : s.FloorInv) : (s.stepFlight p f).FloorInv := by
  obtain ⟨rfl, init, -⟩ | ⟨notInit, onPort, inited, -⟩ :=
    flight_cases s p f inv.toOrderly hf
  · exact stepFlight_init_floorInv s f hf init inv
  have floor : Config.platform.cMin ≤ (s.stepFlight p f).planner.currC := by
    rw [stepFlight_planner]
    obtain same | ⟨l, hm, wrote⟩ := microStep_currC Config.platform f.micro s.planner notInit
    · rw [same]; exact inv.floor inited
    · rw [wrote]
      cases p with
      | P => rw [hm] at onPort; cases onPort
      | C => exact inv.floorInGet l (hm ▸ microOn_of_flight s .C f hf)
  refine floorInv_of_floor _ (stepFlight_orderly s p f hf inv.toOrderly) floor fun l h => ?_
  cases p with
  | P => exact inv.floorInGet l (microOn_stepFlight_other s .P .C f nofun ▸ h)
  | C => exact next_g5_floor _ f.micro s.planner l (stepFlight_microOn_self s .C f ▸ h)

theorem launch_floorInv (s : State) (p : Port) (i : Instr) (w : CmdWord) (m : Micro)
    (takes : s.Takes p i) (first : Micro.first i = some m) (inv : s.FloorInv) :
    (s.launch p w m).FloorInv := by
  have orderly := launch_orderly s p i w m takes first inv.toOrderly
  cases p with
  | P =>
    refine ⟨orderly, inv.floor, ?_, inv.floorInGet⟩
    cases i <;> cases first <;> trivial
  | C =>
    refine ⟨orderly, inv.floor, inv.floorInInit, fun l h => ?_⟩
    cases i <;> cases first <;> cases h

theorem same_floorInv (s t : State) (same : SameMachine s t) (inv : s.FloorInv) : t.FloorInv where
  toOrderly := same_orderly s t same inv.toOrderly
  floor := by rw [same.inited, same.planner]; exact inv.floor
  floorInInit := by rw [same.microOn, same.planner]; exact inv.floorInInit
  floorInGet := by rw [same.microOn]; exact inv.floorInGet

theorem floorInv_kept : KeptByMicroSteps State.FloorInv where
  same := same_floorInv
  launch s p i w m := launch_floorInv s p i w m
  micro := stepFlight_floorInv

/-- Settles O37: `curr_c` is written with `C_START` by INIT and with a floored value by G5, and by nothing
else. -/
theorem everyStepKeepsTheFloor : Obligations.EveryStepKeepsTheFloor :=
  step_of_kept floorInv_kept

end Sys2Proof.Machine
end

section
/-! SUPPORT. The ring (spec/43_phases_and_invariants.md R150, R151, R153): what publishing, consuming and
retiring a slot do to the live slots, and the ring invariant at every step of every interleaving. -/

namespace Sys2Proof.Machine

/-! ### The live slots as a stretch of the ring (R150, R151) -/

/-- The live slots are the `L` slots from `vh` on, and `vt` is the slot after them (R150). -/
def RingOf (vh vt : SlotIx) (n : Vector Word 4) (L : Nat) : Prop :=
  L ≤ 4 ∧ vt.val = (vh.val + L) % 4 ∧ ∀ k : SlotIx, n[vh + k] ≠ 0 ↔ k.val < L

theorem ring_iff_ringOf (vh vt : SlotIx) (n : Vector Word 4) :
    Ring vh vt n ↔ ∃ L, RingOf vh vt n L := Iff.rfl

theorem live_iff_ringOf (r : Planner) (L : Nat) : r.Live L ↔ RingOf r.head r.tail r.nextN L := Iff.rfl

theorem val_add_one_of_ne (k : SlotIx) (h : k ≠ 3) : (k + 1).val = k.val + 1 := by
  revert k; decide

section
variable {vh vt : SlotIx} {n : Vector Word 4} {L : Nat}

/-- The slot after the live ones, as a place counted from the first of them. -/
theorem ringOf_tail_eq (ring : RingOf vh vt n L) (k : SlotIx) (hk : k.val = L % 4) : vt = vh + k := by
  obtain ⟨-, tail, -⟩ := ring
  refine Fin.ext ?_
  rw [tail, Fin.val_add, hk]
  omega

theorem ringOf_head_live_iff (ring : RingOf vh vt n L) : n[vh] ≠ 0 ↔ 0 < L := by
  obtain ⟨-, -, live⟩ := ring
  simpa using live 0

theorem ringOf_tail_live_iff (ring : RingOf vh vt n L) : n[vt] ≠ 0 ↔ L = 4 := by
  have place := ringOf_tail_eq ring ⟨L % 4, Nat.mod_lt _ (by decide)⟩ rfl
  obtain ⟨four, -, live⟩ := ring
  rw [place, live]
  show L % 4 < L ↔ L = 4
  omega

/-- Giving the slot after the live ones a count makes it the last of them (40_queue.md R92). -/
theorem ringOf_publish (ring : RingOf vh vt n L) (free : n[vt] = 0) (x : Word) (hx : x ≠ 0) :
    RingOf vh (ringSucc vt) (n.set vt x) (L + 1) := by
  have room : L ≠ 4 := fun full => (ringOf_tail_live_iff ring).mpr full free
  obtain ⟨four, tail, live⟩ := id ring
  have below : L < 4 := by omega
  have place := ringOf_tail_eq ring ⟨L, below⟩ (Nat.mod_eq_of_lt below).symm
  refine ⟨below, ?_, fun k => ?_⟩
  · rw [ringSucc, Fin.val_add, tail]
    show ((vh.val + L) % 4 + 1) % 4 = _
    omega
  · rw [slot_set]
    by_cases last : vt = vh + k
    · have : k.val = L := by rw [place] at last; rw [← add_left_cancel last]
      rw [if_pos last]
      exact iff_of_true hx (by omega)
    · have : k.val ≠ L := fun e => last (by rw [place]; congr 1; exact Fin.ext e.symm)
      rw [if_neg last, live]
      omega

/-- Taking the count of the first live slot makes the next one the first (40_queue.md R93). -/
theorem ringOf_retire (ring : RingOf vh vt n (L + 1)) : RingOf (ringSucc vh) vt (n.set vh 0) L := by
  obtain ⟨four, tail, live⟩ := ring
  refine ⟨by omega, ?_, fun k => ?_⟩
  · rw [tail, ringSucc, Fin.val_add]
    show _ = ((vh.val + 1) % 4 + L) % 4
    omega
  have around : ringSucc vh + k = vh + (k + 1) := by rw [ringSucc, add_assoc, add_comm 1]
  simp only [slot_set, around]
  by_cases wraps : k = 3
  · subst wraps
    have back : vh = vh + (3 + 1) := ((ring_add_eq_self vh _).mpr rfl).symm
    rw [if_pos back]
    exact iff_of_false (not_not_intro rfl) (show ¬ 3 < L by omega)
  · have next := val_add_one_of_ne k wraps
    have other : vh ≠ vh + (k + 1) := fun e => by
      have zero := congrArg Fin.val ((ring_add_eq_self vh _).mp e.symm)
      rw [next] at zero
      cases zero
    rw [if_neg other, live, next]
    omega

/-- Giving a live slot another count leaves the live slots as they are. -/
theorem ringOf_set_live (ring : RingOf vh vt n L) (i : SlotIx) (live : n[i] ≠ 0) (x : Word)
    (hx : x ≠ 0) : RingOf vh vt (n.set i x) L := by
  obtain ⟨four, tail, slots⟩ := ring
  refine ⟨four, tail, fun k => ?_⟩
  rw [← slots k, slot_set]
  split
  · rename_i same
    subst same
    exact iff_of_true hx live
  · exact Iff.rfl

end

/-! ### The two ends of the ring while a cursor lags behind (R150) -/

/-- Where the live slots begin when the consumer is at `o`: between G8 and G9 one slot after `head`. -/
def headAt (r : Planner) : Option Micro → SlotIx
  | some (.g9 l) => ringSucc l.h
  | _ => r.head

/-- Where the live slots end when the producer is at `o`: between P5 and P6 one slot after `tail`. -/
def tailAt (r : Planner) : Option Micro → SlotIx
  | some (.p6 _ _ t _) => ringSucc t
  | _ => r.tail

theorem ringHead_eq (s : State) : s.ringHead = headAt s.planner (s.microOn .C) := rfl

theorem ringTail_eq (s : State) : s.ringTail = tailAt s.planner (s.microOn .P) := rfl

theorem headAt_congr (r r' : Planner) (o : Option Micro) (h : r'.head = r.head) :
    headAt r' o = headAt r o := by
  unfold headAt; split
  · rfl
  · exact h

theorem tailAt_congr (r r' : Planner) (o : Option Micro) (h : r'.tail = r.tail) :
    tailAt r' o = tailAt r o := by
  unfold tailAt; split
  · rfl
  · exact h

/-- A PUT's micro-steps keep the ring: P5 publishes the slot after the live ones, and P6 moves `tail` on. -/
theorem ring_next_onP (cfg : Config) (m : Micro) (r : Planner) (vh : SlotIx)
    (onP : m.ofPort .P = true) (notInit : m.isInit = false) (knows : producerKnows r m)
    (ring : Ring vh (tailAt r (some m)) r.nextN) :
    Ring vh (tailAt (microStep cfg m r).1 (microStep cfg m r).2.next) (microStep cfg m r).1.nextN := by
  cases m
  case i1 | i2 | i3 | i4 | i5 => cases notInit
  case b1 | b2 | b3 | b4 | b5 | g1 | g2 | g3 | g4 | g5 | g6 | g7 | g8 | g9 | g10 | g11 | g12 | g13 |
    g14 => cases onP
  case p0 | p2 => simp only [microStep]; split <;> exact ring
  case p5 steps speed t p =>
    obtain ⟨nonzero, rfl, free, -⟩ := knows
    obtain ⟨L, ring⟩ := (ring_iff_ringOf _ _ _).mp ring
    exact ⟨L + 1, ringOf_publish ring free steps nonzero⟩
  all_goals exact ring

/-- A GET's micro-steps keep the ring: G7 leaves steps in the head slot, G8 retires it, and G9 moves `head`
on. -/
theorem ring_next_onC (cfg : Config) (m : Micro) (r : Planner) (vt : SlotIx)
    (onC : m.ofPort .C = true) (knows : consumerKnows r m)
    (ring : Ring (headAt r (some m)) vt r.nextN) :
    Ring (headAt (microStep cfg m r).1 (microStep cfg m r).2.next) vt (microStep cfg m r).1.nextN := by
  cases m
  case i1 | i2 | i3 | i4 | i5 | p0 | p1 | p2 | p3 | p4 | p5 | p6 | p7 | p8 => cases onC
  case b2 | g2 | g10 => simp only [microStep]; split <;> exact ring
  case g7 l =>
    by_cases last : l.n = 1
    · rw [microStep_g7_last cfg l r last]; exact ring
    · rw [microStep_g7_more cfg l r last]
      obtain ⟨-, count, live⟩ := knows
      obtain ⟨L, ring⟩ := (ring_iff_ringOf _ _ _).mp ring
      exact ⟨L, ringOf_set_live ring l.h (ne_of_eq_of_ne count live) _ (by bv_omega)⟩
  case g8 l =>
    obtain ⟨head, one⟩ := knows
    obtain ⟨L, ring⟩ := (ring_iff_ringOf _ _ _).mp ring
    have live : r.nextN[r.head] ≠ 0 := by simp only [← head, one]; decide
    obtain ⟨L, rfl⟩ := Nat.exists_eq_succ_of_ne_zero ((ringOf_head_live_iff ring).mp live).ne'
    have retired := ringOf_retire ring
    simp only [headAt, ← head] at retired
    exact ⟨L, retired⟩
  all_goals exact ring

/-! ### What each agent knows, across a micro-step of its own and of the other's (R153) -/

theorem producerKnows_kept (r r' : Planner) (m : Micro) (tail : r'.tail = r.tail)
    (planC : r'.planC = r.planC) (nextDc : r'.nextDc = r.nextDc)
    (keepsFree : ∀ i : SlotIx, r.nextN[i] = 0 → r'.nextN[i] = 0) (knows : producerKnows r m) :
    producerKnows r' m := by
  cases m
  case p2 | p6 => simpa only [producerKnows, tail] using knows
  case p3 =>
    obtain ⟨nonzero, slot, free⟩ := knows
    exact ⟨nonzero, slot.trans tail.symm, keepsFree _ free⟩
  case p4 =>
    obtain ⟨nonzero, slot, free, planned⟩ := knows
    exact ⟨nonzero, slot.trans tail.symm, keepsFree _ free, planned.trans planC.symm⟩
  case p5 =>
    obtain ⟨nonzero, slot, free, delta⟩ := knows
    exact ⟨nonzero, slot.trans tail.symm, keepsFree _ free, by simpa only [nextDc, planC] using delta⟩
  all_goals exact knows

theorem consumerKnows_kept (r r' : Planner) (m : Micro) (head : r'.head = r.head)
    (keepsLive : ∀ i : SlotIx, r.nextN[i] ≠ 0 → r'.nextN[i] = r.nextN[i]) (knows : consumerKnows r m) :
    consumerKnows r' m := by
  cases m
  case g2 | g9 | g10 | g11 => simpa only [consumerKnows, head] using knows
  case g3 | g4 | g5 | g6 | g7 =>
    obtain ⟨slot, count, live⟩ := knows
    exact ⟨slot.trans head.symm, (keepsLive _ (ne_of_eq_of_ne count live)).trans count, live⟩
  case g8 =>
    obtain ⟨slot, one⟩ := knows
    exact ⟨slot.trans head.symm, (keepsLive _ (ne_of_eq_of_ne one (by decide))).trans one⟩
  all_goals exact knows

/-- What a PUT reads at P1, P2 and P3 it knows afterwards, and at P5 it knows the delta it wrote at P4. -/
theorem producerKnows_next (cfg : Config) (m m' : Micro) (r : Planner) (onP : m.ofPort .P = true)
    (knows : producerKnows r m) (h : (microStep cfg m r).2.next = some m') :
    producerKnows (microStep cfg m r).1 m' := by
  cases m
  case b1 | b2 | b3 | b4 | b5 | g1 | g2 | g3 | g4 | g5 | g6 | g7 | g8 | g9 | g10 | g11 | g12 | g13 |
    g14 => cases onP
  case p0 steps speed =>
    by_cases zero : steps = 0
    · subst zero; cases h
    · rw [microStep_p0 cfg steps speed r zero] at h ⊢
      cases h; exact zero
  case p1 => cases h; exact ⟨knows, rfl⟩
  case p2 steps speed t =>
    obtain ⟨nonzero, slot⟩ := knows
    by_cases free : r.nextN[t] = 0
    · rw [microStep_p2_free cfg steps speed t r free] at h ⊢
      cases h; exact ⟨nonzero, slot, free⟩
    · rw [microStep_p2_live cfg steps speed t r free] at h; cases h
  case p3 =>
    obtain ⟨nonzero, slot, free⟩ := knows
    cases h; exact ⟨nonzero, slot, free, rfl⟩
  case p4 steps speed t p =>
    obtain ⟨nonzero, slot, free, planned⟩ := knows
    cases h
    exact ⟨nonzero, slot, free, (slot_set_self r.nextDc t _).trans (congrArg _ planned)⟩
  case p5 => cases h; exact knows.2.1
  all_goals cases h <;> trivial

/-- What a GET reads at G1 and G2 it knows until G8, and at G10 it knows where it moved `head`. -/
theorem consumerKnows_next (cfg : Config) (m m' : Micro) (r : Planner) (onC : m.ofPort .C = true)
    (knows : consumerKnows r m) (h : (microStep cfg m r).2.next = some m') :
    consumerKnows (microStep cfg m r).1 m' := by
  cases m
  case i1 | i2 | i3 | i4 | i5 | p0 | p1 | p2 | p3 | p4 | p5 | p6 | p7 | p8 => cases onC
  case b2 => simp only [microStep] at h; split at h <;> cases h; trivial
  case g1 => cases h; rfl
  case g2 clip i =>
    by_cases free : r.nextN[i] = 0
    · rw [microStep_g2_free cfg clip i r free] at h; cases h
    · rw [microStep_g2_live cfg clip i r free] at h ⊢
      cases h; exact ⟨knows, rfl, free⟩
  case g7 l =>
    by_cases last : l.n = 1
    · rw [microStep_g7_last cfg l r last] at h ⊢
      obtain ⟨slot, count, -⟩ := knows
      cases h; exact ⟨slot, count.trans last⟩
    · rw [microStep_g7_more cfg l r last] at h; cases h; trivial
  case g8 => cases h; exact knows.1
  case g9 => cases h; rfl
  case g10 l i =>
    by_cases free : r.nextN[i] = 0
    · rw [microStep_g10_free cfg l i r free] at h; cases h; trivial
    · rw [microStep_g10_live cfg l i r free] at h; cases h; exact knows
  case g3 | g4 | g5 | g6 => cases h; exact knows
  all_goals cases h <;> trivial

/-- A PUT's micro-step leaves `head` and the count of every live slot (60_exceptions.md R169). -/
theorem microStep_onP_frame (cfg : Config) (m : Micro) (r : Planner) (onP : m.ofPort .P = true)
    (notInit : m.isInit = false) (knows : producerKnows r m) :
    (microStep cfg m r).1.head = r.head ∧
    ∀ i : SlotIx, r.nextN[i] ≠ 0 → (microStep cfg m r).1.nextN[i] = r.nextN[i] := by
  cases m
  case i1 | i2 | i3 | i4 | i5 => cases notInit
  case b1 | b2 | b3 | b4 | b5 | g1 | g2 | g3 | g4 | g5 | g6 | g7 | g8 | g9 | g10 | g11 | g12 | g13 |
    g14 => cases onP
  case p5 steps speed t p =>
    obtain ⟨-, -, free, -⟩ := knows
    exact ⟨rfl, fun i live => slot_set_ne r.nextN t i steps fun same => live (same ▸ free)⟩
  all_goals exact ⟨rfl, fun _ _ => rfl⟩

/-- A consumer's micro-step leaves `tail`, `plan_c`, the deltas and every free slot (60_exceptions.md R169). -/
theorem microStep_onC_frame (cfg : Config) (m : Micro) (r : Planner) (onC : m.ofPort .C = true)
    (knows : consumerKnows r m) :
    (microStep cfg m r).1.tail = r.tail ∧ (microStep cfg m r).1.planC = r.planC ∧
    (microStep cfg m r).1.nextDc = r.nextDc ∧
    ∀ i : SlotIx, r.nextN[i] = 0 → (microStep cfg m r).1.nextN[i] = 0 := by
  have keepsFree (i : SlotIx) := microStep_onC_keeps_free cfg m r i onC
    fun h => consumerKnows_liveSlot r m h knows
  cases m
  case i1 | i2 | i3 | i4 | i5 | p0 | p1 | p2 | p3 | p4 | p5 | p6 | p7 | p8 => cases onC
  case g7 l =>
    refine ⟨?_, ?_, ?_, keepsFree⟩ <;> simp only [microStep] <;> split <;> rfl
  all_goals exact ⟨rfl, rfl, rfl, keepsFree⟩

/-! ### The ring invariant at every step (R150, R153) -/

/-- With no INIT in flight, the ring invariant is about the ring and what the two agents know. -/
theorem ringInv_of_noInit (s : State) (orderly : s.Orderly) (noInit : s.initInFlight = false)
    (ring : s.inited = true → Ring s.ringHead s.ringTail s.planner.nextN)
    (producer : ∀ m, s.microOn .P = some m → producerKnows s.planner m)
    (consumer : ∀ m, s.microOn .C = some m → consumerKnows s.planner m) : s.RingInv where
  toOrderly := orderly
  ring inited _ := ring inited
  ringInInit := by
    rw [initInFlight_eq] at noInit
    split
    case h_5 => trivial
    all_goals rename_i hm; rw [hm] at noInit; cases noInit
  producer := producer
  consumer := consumer

/-- A PUT's or a consumer's micro-step keeps the ring and what both agents know. -/
theorem stepFlight_ringInv_of_running (s : State) (p : Port) (f : Flight) (hf : s.flight p = some f)
    (notInit : f.micro.isInit = false) (onPort : f.micro.ofPort p = true) (inited : s.inited = true)
    (noInit : s.initInFlight = false) (inv : s.RingInv) : (s.stepFlight p f).RingInv := by
  obtain ⟨-, noInit'⟩ := stepFlight_running s p f notInit inited noInit
  have orderly := stepFlight_orderly s p f hf inv.toOrderly
  have micro := microOn_of_flight s p f hf
  have ring := inv.ring inited noInit
  rw [ringHead_eq, ringTail_eq] at ring
  cases p with
  | P =>
    have knows := inv.producer f.micro micro
    obtain ⟨head, keepsLive⟩ :=
      microStep_onP_frame Config.platform f.micro s.planner onPort notInit knows
    have other := microOn_stepFlight_other s .P .C f nofun
    refine ringInv_of_noInit _ orderly noInit' (fun _ => ?_) (fun m h => ?_) (fun m h => ?_)
    · rw [ringHead_eq, ringTail_eq, other, stepFlight_microOn_self, stepFlight_planner,
        headAt_congr _ _ _ head]
      exact ring_next_onP _ f.micro s.planner _ onPort notInit knows (micro ▸ ring)
    · rw [stepFlight_planner]
      exact producerKnows_next _ f.micro m s.planner onPort knows (stepFlight_microOn_self s .P f ▸ h)
    · rw [stepFlight_planner]
      exact consumerKnows_kept _ _ m head keepsLive (inv.consumer m (other ▸ h))
  | C =>
    have knows := inv.consumer f.micro micro
    obtain ⟨tail, planC, nextDc, keepsFree⟩ :=
      microStep_onC_frame Config.platform f.micro s.planner onPort knows
    have other := microOn_stepFlight_other s .C .P f nofun
    refine ringInv_of_noInit _ orderly noInit' (fun _ => ?_) (fun m h => ?_) (fun m h => ?_)
    · rw [ringHead_eq, ringTail_eq, other, stepFlight_microOn_self, stepFlight_planner,
        tailAt_congr _ _ _ tail]
      exact ring_next_onC _ f.micro s.planner _ onPort knows (micro ▸ ring)
    · rw [stepFlight_planner]
      exact producerKnows_kept _ _ m tail planC nextDc keepsFree (inv.producer m (other ▸ h))
    · rw [stepFlight_planner]
      exact consumerKnows_next _ f.micro m s.planner onPort knows (stepFlight_microOn_self s .C f ▸ h)

/-- INIT empties the slots (I1), then the cursors (I2), and the ring is there before it ends. -/
theorem stepFlight_init_ringInv (s : State) (f : Flight) (hf : s.flightP = some f)
    (init : f.micro.isInit = true) (alone : s.flightC = none) (inv : s.RingInv) :
    (s.stepFlight .P f).RingInv := by
  have orderly := stepFlight_orderly s .P f hf inv.toOrderly
  have noC := (flight_eq_none_iff s .C).mp alone
  have noConsumer (r : Planner) (m : Micro) (h : s.microOn .C = some m) : consumerKnows r m := by
    cases noC.symm.trans h
  have clause := inv.ringInInit
  rw [microOn_P_of_flight s f hf] at clause
  obtain ⟨w, m⟩ := f
  cases m <;> cases init
  case i1 => exact ⟨orderly, nofun, rfl, fun _ h => by cases h; trivial, noConsumer _⟩
  case i2 =>
    have empty : s.planner.nextN = #v[0, 0, 0, 0] := clause
    have ring : Ring 0 0 s.planner.nextN := empty ▸ reset_ring 0
    exact ⟨orderly, nofun, ring, fun _ h => by cases h; trivial, noConsumer _⟩
  case i3 | i4 => exact ⟨orderly, nofun, clause, fun _ h => by cases h; trivial, noConsumer _⟩
  case i5 =>
    have head : s.ringHead = s.planner.head := by rw [ringHead_eq, noC]; rfl
    have ring : Ring s.ringHead s.planner.tail s.planner.nextN := head ▸ clause
    exact ringInv_of_noInit _ orderly rfl (fun _ => ring) nofun (noConsumer _)

theorem stepFlight_ringInv (s : State) (p : Port) (f : Flight) (hf : s.flight p = some f)
    (inv : s.RingInv) : (s.stepFlight p f).RingInv := by
  obtain ⟨rfl, init, alone⟩ | ⟨notInit, onPort, inited, noInit⟩ :=
    flight_cases s p f inv.toOrderly hf
  · exact stepFlight_init_ringInv s f hf init alone inv
  · exact stepFlight_ringInv_of_running s p f hf notInit onPort inited noInit inv

/-- A command begins knowing nothing of the queue. -/
theorem launch_ringInv (s : State) (p : Port) (i : Instr) (w : CmdWord) (m : Micro)
    (takes : s.Takes p i) (first : Micro.first i = some m) (inv : s.RingInv) :
    (s.launch p w m).RingInv := by
  have orderly := launch_orderly s p i w m takes first inv.toOrderly
  have noMicro := (flight_eq_none_iff s p).mp takes.idle
  cases p with
  | P =>
    refine ⟨orderly, fun inited noInit => ?_, ?_, fun m' h => ?_, inv.consumer⟩
    · have notInit : isInit i = false := (first_isInit i m first).symm.trans noInit
      have ring := inv.ring inited (takes.running notInit).2
      rw [ringTail_eq, noMicro] at ring
      have tail : tailAt s.planner (some m) = s.planner.tail := by cases i <;> cases first <;> rfl
      show Ring _ (tailAt s.planner (some m)) _
      rw [tail]; exact ring
    · cases i <;> cases first <;> trivial
    · cases h; cases i <;> cases first <;> trivial
  | C =>
    obtain ⟨inited, noInit⟩ := takes.running (isInit_of_accepted_C i takes.accepted)
    have ring := inv.ring inited noInit
    rw [ringHead_eq, noMicro] at ring
    have head : headAt s.planner (some m) = s.planner.head := by cases i <;> cases first <;> rfl
    refine ringInv_of_noInit _ orderly noInit (fun _ => ?_) inv.producer fun m' h => ?_
    · show Ring (headAt s.planner (some m)) _ _
      rw [head]; exact ring
    · cases h; cases i <;> cases first <;> trivial

theorem same_ringInv (s t : State) (same : SameMachine s t) (inv : s.RingInv) : t.RingInv where
  toOrderly := same_orderly s t same inv.toOrderly
  ring := by
    rw [same.inited, same.initInFlight, ringHead_eq, ringTail_eq, same.microOn, same.microOn,
      same.planner]
    exact inv.ring
  ringInInit := by rw [same.microOn, same.planner]; exact inv.ringInInit
  producer := by rw [same.microOn, same.planner]; exact inv.producer
  consumer := by rw [same.microOn, same.planner]; exact inv.consumer

theorem ringInv_kept : KeptByMicroSteps State.RingInv where
  same := same_ringInv
  launch s p i w m := launch_ringInv s p i w m
  micro := stepFlight_ringInv

/-- Settles O35: P5 publishes the slot after the live ones, G8 retires the first of them, and neither agent
writes what the other knows. -/
theorem everyStepKeepsTheRing : Obligations.EveryStepKeepsTheRing :=
  step_of_kept ringInv_kept

/-! ### The sentinel tests (R151) -/

/-- Settles O39: outside the two windows the ends of the ring are the cursors. -/
theorem sentinelTestsAreExact : Obligations.SentinelTestsAreExact := by
  intro s inv inited noInit notG9 notP6
  have head : s.ringHead = s.planner.head := by
    rw [ringHead_eq]; unfold headAt; split
    · exact absurd ‹_› (notG9 _)
    · rfl
  have tail : s.ringTail = s.planner.tail := by
    rw [ringTail_eq]; unfold tailAt; split
    · exact absurd ‹_› (notP6 _ _ _ _)
    · rfl
  obtain ⟨L, ring⟩ := (ring_iff_ringOf _ _ _).mp (inv.ring inited noInit)
  have live : RingOf s.planner.head s.planner.tail s.planner.nextN L := head ▸ tail ▸ ring
  refine ⟨L, live, ?_, ringOf_tail_live_iff live⟩
  rw [← not_iff_not, ← ne_eq, ringOf_head_live_iff live, Nat.pos_iff_ne_zero]

end Sys2Proof.Machine
end

section
/-! SUPPORT. What a step does to the slots (spec/43_phases_and_invariants.md R152, R153; spec/20_memory.md R61):
a live slot is not overwritten, and the sum of the counts changes by what is queued and consumed. -/

namespace Sys2Proof.Machine

/-! ### What the commands do to the slots -/

/-- One step comes off the head slot's count, whether it is written back (G7) or the slot retired (G8). -/
theorem consumeStep_nextN (r : Planner) (n : Word) :
    (r.consumeStep n).nextN = r.nextN.set r.head (n - 1) := by
  by_cases last : n = 1
  · rw [last, consumeStep_of_last, loadNext_nextN, advanceHead_nextN]; rfl
  · rw [consumeStep_of_more r n last, slotWrite_n_nextN]

theorem consumeStep_nextDc (r : Planner) (n : Word) : (r.consumeStep n).nextDc = r.nextDc := by
  by_cases last : n = 1
  · rw [last, consumeStep_of_last, loadNext_nextDc, advanceHead_nextDc]
  · rw [consumeStep_of_more r n last, slotWrite_n_nextDc]

theorem get_nextN (cfg : Config) (clip : Bool) (r : Planner) (live : r.nextN[r.head] ≠ 0) :
    (r.get cfg clip).1.nextN = r.nextN.set r.head (r.nextN[r.head] - 1) := by
  rw [get_of_live cfg clip r live]
  exact consumeStep_nextN (r.updated cfg clip) _

theorem get_nextDc (cfg : Config) (clip : Bool) (r : Planner) :
    (r.get cfg clip).1.nextDc = r.nextDc := by
  by_cases empty : r.nextN[r.head] = 0
  · rw [get_of_empty cfg clip r empty]
  · rw [get_of_live cfg clip r empty]
    exact consumeStep_nextDc (r.updated cfg clip) _

theorem beginDda_nextDc (target : Word) (r : Planner) : (r.beginDda target).1.nextDc = r.nextDc := by
  unfold Planner.beginDda; split <;> rfl

/-- What an agent at a micro-step knows, it knows on either port: the other agent's commands know nothing. -/
theorem knows_of_ringInv (s : State) (inv : s.RingInv) (p : Port) (m : Micro)
    (hm : s.microOn p = some m) : producerKnows s.planner m ∧ consumerKnows s.planner m := by
  cases p with
  | P =>
    have onP := inv.portP m hm
    refine ⟨inv.producer m hm, ?_⟩
    cases m
    case g1 | g2 | g3 | g4 | g5 | g6 | g7 | g8 | g9 | g10 | g11 | g12 | g13 | g14 => cases onP
    all_goals trivial
  | C =>
    have onC := inv.portC m hm
    refine ⟨?_, inv.consumer m hm⟩
    cases m
    case p0 | p1 | p2 | p3 | p4 | p5 | p6 | p7 | p8 => cases onC
    all_goals trivial

/-! ### Live slots (R153) -/

/-- From the registers `r` to `r'` a live slot keeps its delta and loses at most one step, and no slot becomes
live but the one `tail` names. -/
def SlotsSafe (r r' : Planner) : Prop :=
  ∀ i : SlotIx,
    (r.nextN[i] ≠ 0 → r'.nextDc[i] = r.nextDc[i] ∧
      (r'.nextN[i] = r.nextN[i] ∨ r'.nextN[i] = r.nextN[i] - 1)) ∧
    (r.nextN[i] = 0 → r'.nextN[i] ≠ 0 → i = r.tail)

section
variable {r r' : Planner}

theorem slotsSafe_of_same (nextN : r'.nextN = r.nextN) (nextDc : r'.nextDc = r.nextDc) :
    SlotsSafe r r' := fun i => by
  rw [nextN, nextDc]
  exact ⟨fun _ => ⟨rfl, .inl rfl⟩, fun free live => absurd free live⟩

theorem slotsSafe_of_consumed (h : SlotIx) (live : r.nextN[h] ≠ 0)
    (nextN : r'.nextN = r.nextN.set h (r.nextN[h] - 1)) (nextDc : r'.nextDc = r.nextDc) :
    SlotsSafe r r' := fun i => by
  rw [nextN, nextDc, slot_set]
  by_cases same : h = i
  · subst same
    exact ⟨fun _ => ⟨rfl, .inr (if_pos rfl)⟩, fun free => absurd free live⟩
  · exact ⟨fun _ => ⟨rfl, .inl (if_neg same)⟩,
      fun free filled => absurd ((if_neg same).trans free) filled⟩

theorem slotsSafe_of_filled (free : r.nextN[r.tail] = 0)
    (others : ∀ i : SlotIx, r.tail ≠ i → r'.nextN[i] = r.nextN[i] ∧ r'.nextDc[i] = r.nextDc[i]) :
    SlotsSafe r r' := fun i => by
  by_cases same : r.tail = i
  · subst same
    exact ⟨fun live => absurd free live, fun _ _ => rfl⟩
  · obtain ⟨nextN, nextDc⟩ := others i same
    exact ⟨fun _ => ⟨nextDc, .inl nextN⟩, fun free filled => absurd (nextN.trans free) filled⟩

end

theorem put_slotsSafe (steps speed : Word) (r : Planner) : SlotsSafe r (r.put steps speed).1 := by
  by_cases zero : steps = 0
  · rw [zero, put_of_zero]; exact slotsSafe_of_same rfl rfl
  by_cases free : r.nextN[r.tail] = 0
  · rw [put_of_free _ _ _ zero free]
    exact slotsSafe_of_filled free fun i other => ⟨slot_set_ne _ _ i _ other, slot_set_ne _ _ i _ other⟩
  · rw [put_of_full _ _ _ zero free]; exact slotsSafe_of_same rfl rfl

theorem get_slotsSafe (cfg : Config) (clip : Bool) (r : Planner) :
    SlotsSafe r (r.get cfg clip).1 := by
  by_cases empty : r.nextN[r.head] = 0
  · rw [get_of_empty cfg clip r empty]; exact slotsSafe_of_same rfl rfl
  · exact slotsSafe_of_consumed r.head empty (get_nextN cfg clip r empty) (get_nextDc cfg clip r)

theorem rule_slotsSafe (i : Instr) (r : Planner) (notInit : i ≠ .init) :
    SlotsSafe r (ruleOf i r).1 := by
  cases i with
  | init => exact absurd rfl notInit
  | put steps speed => exact put_slotsSafe steps speed r
  | get clip => exact get_slotsSafe _ clip r
  | beginDda target => exact slotsSafe_of_same (beginDda_nextN target r) (beginDda_nextDc target r)
  | full | empty | reserved0 | reserved7 | reserved8toF => exact slotsSafe_of_same rfl rfl

/-- A micro-step writes a slot at P4, P5, G7 and G8 only, and its agent knows whether that slot is free. -/
theorem microStep_slotsSafe (cfg : Config) (m : Micro) (r : Planner) (notInit : m.isInit = false)
    (producer : producerKnows r m) (consumer : consumerKnows r m) :
    SlotsSafe r (microStep cfg m r).1 := by
  cases m
  case i1 | i2 | i3 | i4 | i5 => cases notInit
  case p4 =>
    obtain ⟨-, rfl, free, -⟩ := producer
    exact slotsSafe_of_filled free fun i other => ⟨rfl, slot_set_ne _ _ i _ other⟩
  case p5 =>
    obtain ⟨-, rfl, free, -⟩ := producer
    exact slotsSafe_of_filled free fun i other => ⟨slot_set_ne _ _ i _ other, rfl⟩
  case g7 l =>
    obtain ⟨-, count, live⟩ := consumer
    by_cases last : l.n = 1
    · rw [microStep_g7_last cfg l r last]; exact slotsSafe_of_same rfl rfl
    · rw [microStep_g7_more cfg l r last, ← count]
      exact slotsSafe_of_consumed l.h (ne_of_eq_of_ne count live) rfl rfl
  case g8 l =>
    obtain ⟨-, one⟩ := consumer
    refine slotsSafe_of_consumed l.h (ne_of_eq_of_ne one (by decide)) ?_ rfl
    rw [one]; rfl
  all_goals exact slotsSafe_of_same rfl rfl

/-- Presented whole, INIT is accepted on port P only (30_encoding.md R74). -/
theorem notInit_of_accepted (i : Instr) (p : Port) (hi : i = .init → p ≠ .P)
    (accepted : acceptedOn i p = true) : i ≠ .init := by
  rintro rfl
  exact hi rfl (acceptedOn_init p accepted)

theorem exec_slotsSafe (i : Instr) (s t : State) (hi : i = .init → s.port ≠ .P)
    (h : exec i s = .next t) : SlotsSafe s.planner t.planner := by
  obtain ⟨-, rfl⟩ | ⟨accept, rfl⟩ := exec_by_rule i s t h
  · rw [answer_planner]; exact slotsSafe_of_same rfl rfl
  · rw [complete_planner]
    exact rule_slotsSafe i s.planner
      (notInit_of_accepted i s.port hi (takes_of_accept s _ i accept).accepted)

/-- Settles O40: registers change by a whole command or by a micro-step, and both write live slots only to
take a step off. -/
theorem liveSlotsAreNeverOverwritten : Obligations.LiveSlotsAreNeverOverwritten := by
  intro s t inv _ noInit hnoInit hstep
  suffices safe : SlotsSafe s.planner t.planner from safe
  obtain ⟨p, w, rest, hin, hexec⟩ | ⟨p, m, hm, ht⟩ | ht := step_planner s t hstep
  · refine exec_slotsSafe (decode w) (s.taking p rest) t (fun decoded onP => ?_) hexec
    rw [taking_port] at onP
    exact hnoInit w rest (onP ▸ hin) decoded
  · obtain ⟨producer, consumer⟩ := knows_of_ringInv s inv p m hm
    rw [ht]
    exact microStep_slotsSafe _ m s.planner (microOn_not_init s inv.toOrderly noInit p m hm) producer
      consumer
  · rw [ht]; exact slotsSafe_of_same rfl rfl

/-! ### The sum of the counts (R152) -/

theorem stepSum_eq_sum (r : Planner) : r.stepSum = ∑ i : SlotIx, r.nextN[i].toNat := by
  rw [Fin.sum_univ_four]; rfl

/-- Writing a count changes the sum by the difference. -/
theorem stepSum_of_set (r r' : Planner) (i : SlotIx) (x : Word) (h : r'.nextN = r.nextN.set i x) :
    r'.stepSum + r.nextN[i].toNat = r.stepSum + x.toNat := by
  have others : ∀ j ∈ Finset.univ.erase i, (r.nextN.set i x)[j].toNat = r.nextN[j].toNat :=
    fun j hj => by rw [slot_set_ne r.nextN i j x (Finset.ne_of_mem_erase hj).symm]
  rw [stepSum_eq_sum, stepSum_eq_sum, h, ← Finset.add_sum_erase _ _ (Finset.mem_univ i),
    ← Finset.add_sum_erase Finset.univ (fun j : SlotIx => r.nextN[j].toNat) (Finset.mem_univ i),
    Finset.sum_congr rfl others, slot_set_self]
  omega

theorem put_stepSum (steps speed : Word) (r : Planner) :
    (r.put steps speed).1.stepSum =
      r.stepSum + queuedBy (.put steps speed) (some (r.put steps speed).2) := by
  by_cases zero : steps = 0
  · rw [zero, put_of_zero]; rfl
  by_cases free : r.nextN[r.tail] = 0
  · have published := stepSum_of_set r (r.put steps speed).1 r.tail steps
      (by rw [put_of_free _ _ _ zero free]; rfl)
    rw [free] at published
    rw [put_of_free _ _ _ zero free] at published ⊢
    exact published
  · rw [put_of_full _ _ _ zero free]; rfl

theorem get_stepSum (cfg : Config) (clip : Bool) (r : Planner) :
    (r.get cfg clip).1.stepSum + consumedBy (.get clip) (some (r.get cfg clip).2) = r.stepSum := by
  by_cases empty : r.nextN[r.head] = 0
  · rw [get_of_empty cfg clip r empty]; rfl
  · have consumed := stepSum_of_set r (r.get cfg clip).1 r.head _ (get_nextN cfg clip r empty)
    have one : consumedBy (.get clip) (some (r.get cfg clip).2) = 1 := by
      rw [get_of_live cfg clip r empty]; rfl
    rw [one]
    bv_omega

/-- A command's rule puts into the queue and takes out of it what its response says. -/
theorem rule_stepSum (i : Instr) (r : Planner) (notInit : i ≠ .init) :
    (ruleOf i r).1.stepSum + consumedBy i (some (ruleOf i r).2) =
      r.stepSum + queuedBy i (some (ruleOf i r).2) := by
  cases i with
  | init => exact absurd rfl notInit
  | put steps speed => exact put_stepSum steps speed r
  | get clip => exact get_stepSum _ clip r
  | beginDda target =>
    show (r.beginDda target).1.stepSum = _
    rw [Planner.stepSum, beginDda_nextN]; rfl
  | full | empty | reserved0 | reserved7 | reserved8toF => rfl

theorem queuedBy_err (i : Instr) : queuedBy i (some (failWith .err)) = 0 := by cases i <;> rfl

theorem consumedBy_err (i : Instr) : consumedBy i (some (failWith .err)) = 0 := by cases i <;> rfl

theorem exec_stepSum (i : Instr) (s t : State) (hi : i = .init → s.port ≠ .P)
    (h : exec i s = .next t) :
    t.planner.stepSum + consumedBy i (t.rsp s.port) =
      s.planner.stepSum + queuedBy i (t.rsp s.port) := by
  obtain ⟨-, rfl⟩ | ⟨accept, rfl⟩ := exec_by_rule i s t h
  · rw [answer_planner, answer_rsp_self, queuedBy_err, consumedBy_err]
  · rw [complete_planner, complete_rsp_self]
    exact rule_stepSum i s.planner
      (notInit_of_accepted i s.port hi (takes_of_accept s _ i accept).accepted)

/-- Settles O44: only PUT and GET write a count. -/
theorem stepsAreConserved : Obligations.StepsAreConserved := fun i s t notInit h =>
  exec_stepSum i s t (fun init => absurd init notInit) h

/-! ### The sum at every step (R152) -/

/-- P5 adds the steps it publishes, and G7 and G8 take one off the count that GET has read. -/
theorem microStep_stepSum (cfg : Config) (m : Micro) (r : Planner) (notInit : m.isInit = false)
    (producer : producerKnows r m) (consumer : consumerKnows r m) :
    (microStep cfg m r).1.stepSum + retiredBy (some m) = r.stepSum + publishedBy (some m) := by
  cases m
  case i1 | i2 | i3 | i4 | i5 => cases notInit
  case p5 steps speed t p =>
    obtain ⟨-, -, free, -⟩ := producer
    have published := stepSum_of_set r (r.slotWrite .n t steps) t steps rfl
    rw [free] at published
    exact published
  case g7 l =>
    obtain ⟨-, count, live⟩ := consumer
    by_cases last : l.n = 1
    · rw [microStep_g7_last cfg l r last, retiredBy, if_pos (by rw [last]; rfl)]; rfl
    · have consumed := stepSum_of_set r (r.slotWrite .n l.h (l.n - 1)) l.h _ rfl
      have nonePublished : publishedBy (some (.g7 l)) = 0 := rfl
      rw [count] at consumed
      rw [microStep_g7_more cfg l r last, retiredBy, if_neg (by bv_omega), nonePublished]
      bv_omega
  case g8 l =>
    obtain ⟨-, one⟩ := consumer
    have retired := stepSum_of_set r (r.slotWrite .n l.h 0) l.h 0 rfl
    rw [one] at retired
    exact retired
  all_goals rfl

/-- The registers after the micro-step `o`, if one is taken. -/
def Planner.after (r : Planner) (o : Option Micro) : Planner :=
  o.elim r fun m => (microStep Config.platform m r).1

theorem advance_after (p : Port) (s t : State) (h : advance p s = .next t) :
    t.planner = s.planner.after (s.microOn p) := by
  obtain ⟨f, hf, rfl⟩ | ⟨rfl, idle, l, -, hl⟩ | ⟨idle, rfl⟩ := advance_next p s t h
  · rw [microOn_of_flight s p f hf, stepFlight_planner]; rfl
  · rw [microOn_P_of_none s idle, stepFill_planner s t l hl]; rfl
  · rw [(flight_eq_none_iff _ p).mp idle]; rfl

theorem goOn_after (s t : State) (h : goOn s = .next t) :
    t.planner = s.planner.after (if s.flightC.isSome then s.microOn .C else s.microOn .P) := by
  unfold goOn at h
  split at h
  · rw [if_pos ‹_›]; exact advance_after .C s t h
  · rw [if_neg ‹_›]; exact advance_after .P s t h

/-- With no word presented, a step writes registers only by the micro-step it takes. -/
theorem step_after (s t : State) (h : step s = .next t)
    (notPresented : ∀ p w rest, s.inputs ≠ .present p w :: rest) :
    t.planner = s.planner.after s.microTaken := by
  cases hi : s.inputs with
  | nil =>
    rw [step, hi] at h
    rw [State.microTaken, hi]
    exact goOn_after s t h
  | cons e rest =>
    rw [step, hi] at h
    rw [State.microTaken, hi]
    cases e with
    | present p w => exact absurd hi (notPresented p w rest)
    | start p w => exact startCommand_planner p w (s.withInputs rest) t h
    | micro p =>
      have after := advance_after p (s.withInputs rest) t h
      rw [State.microOn, withInputs_flight] at after
      exact after
    | fill ref => obtain ⟨-, -, -, rfl⟩ := startFill_next ref (s.withInputs rest) t h; rfl
    | create n v => cases h; rfl
    | amend ref n v => cases h; rfl

theorem microOn_of_microTaken (s : State) (m : Micro) (h : s.microTaken = some m) :
    ∃ p, s.microOn p = some m := by
  unfold State.microTaken at h
  split at h
  · split at h
    · exact ⟨.C, h⟩
    · exact ⟨.P, h⟩
  · exact ⟨_, h⟩
  · cases h

/-- Settles O53: a command presented whole by its rule, and any other step by the one micro-step it takes. -/
theorem stepsAreConservedAtEveryStep : Obligations.StepsAreConservedAtEveryStep := by
  intro s t inv ⟨notPresentedInit, notInit⟩ h
  refine ⟨fun p w rest hi => ?_, fun notPresented => ?_⟩
  · rw [step_present s p w rest hi] at h
    refine exec_stepSum (decode w) (s.taking p rest) t (fun decoded onP => ?_) h
    rw [taking_port] at onP
    exact notPresentedInit w rest (onP ▸ hi) decoded
  · rw [step_after s t h notPresented]
    cases taken : s.microTaken with
    | none => rfl
    | some m =>
      obtain ⟨p, hm⟩ := microOn_of_microTaken s m taken
      obtain ⟨producer, consumer⟩ := knows_of_ringInv s inv p m hm
      exact microStep_stepSum _ m s.planner (notInit m taken) producer consumer

end Sys2Proof.Machine
end

section
/-! SUPPORT. How GET brings `curr_c` to its target (spec/41_velocity_engine.md R103, R109, R110): the distance
after one update, and after the GETs of one segment (spec/43_phases_and_invariants.md R157, R158). -/

namespace Sys2Proof.Machine

/-! ### The distance -/

theorem distance_of_le (c e : Word) (h : c ≤ e) : distance c e = e.toNat - c.toNat := by
  rw [BitVec.le_def] at h
  rw [distance, Nat.sub_eq_zero_of_le h, Nat.zero_add]

theorem distance_of_ge (c e : Word) (h : e ≤ c) : distance c e = c.toNat - e.toNat := by
  rw [BitVec.le_def] at h
  rw [distance, Nat.sub_eq_zero_of_le h, Nat.add_zero]

theorem distance_self (c : Word) : distance c c = 0 := by rw [distance, Nat.sub_self]

/-! ### One update with the flag right (41_velocity_engine.md R103, R109, R110) -/

theorem accelFlag_of_lt (c e : Word) (h : c < e) : accelFlag c e = true := decide_eq_true h

theorem accelFlag_of_ge (c e : Word) (h : e ≤ c) : accelFlag c e = false :=
  decide_eq_false (BitVec.not_lt.mpr h)

/-- Below, at or above the target. -/
theorem speed_trichotomy (c e : Word) : c < e ∨ c = e ∨ e < c := by
  bv_omega

/-- With `clip` the update takes at least the table word off the distance, or all of it, and stays on its side
of the target (R109). -/
theorem velocityUpdate_clipped (lo c e a : Word) (floor : lo ≤ e) :
    distance (velocityUpdate lo c e (accelFlag c e) a true) e ≤ distance c e - a.toNat ∧
    (c ≤ e → velocityUpdate lo c e (accelFlag c e) a true ≤ e) ∧
    (e ≤ c → e ≤ velocityUpdate lo c e (accelFlag c e) a true) := by
  obtain below | rfl | above := speed_trichotomy c e
  · rw [accelFlag_of_lt c e below]
    obtain ⟨le, -⟩ := velocityUpdate_clipped_up lo c e a floor below
    have update := velocityUpdate_up lo c e a true (BitVec.ne_of_lt below)
    refine ⟨?_, fun _ => le, fun h => absurd below (BitVec.not_lt.mpr h)⟩
    rw [distance_of_le _ _ le, distance_of_le _ _ (BitVec.le_of_lt below)]
    simp only [true_and, BitVec.le_def, BitVec.lt_def] at update floor below
    split at update <;> omega
  · rw [velocityUpdate_at_target, raiseTo_of_le lo c floor, distance_self]
    exact ⟨Nat.zero_le _, id, id⟩
  · rw [accelFlag_of_ge c e (BitVec.le_of_lt above)]
    obtain ⟨ge, -⟩ := velocityUpdate_clipped_down lo c e a floor above
    have update := velocityUpdate_down lo c e a true (BitVec.ne_of_lt above).symm
    refine ⟨?_, fun h => absurd above (BitVec.not_lt.mpr h), fun _ => ge⟩
    rw [distance_of_ge _ _ ge, distance_of_ge _ _ (BitVec.le_of_lt above)]
    simp only [true_and, BitVec.le_def, BitVec.lt_def] at update floor above
    split at update <;> omega

/-- Without `clip`, a table word within the distance comes off it exactly; a larger one takes `curr_c` past
the target by less than itself (R158). -/
theorem velocityUpdate_unclipped (lo c e a : Word) (floor : lo ≤ e) (floorC : lo ≤ c) :
    (a.toNat ≤ distance c e →
      distance (velocityUpdate lo c e (accelFlag c e) a false) e = distance c e - a.toNat) ∧
    (distance c e < a.toNat → c ≠ e →
      distance (velocityUpdate lo c e (accelFlag c e) a false) e < a.toNat) := by
  obtain below | rfl | above := speed_trichotomy c e
  · rw [accelFlag_of_lt c e below, distance_of_le _ _ (BitVec.le_of_lt below)]
    have update := velocityUpdate_up lo c e a false (BitVec.ne_of_lt below)
    simp only [Bool.false_eq_true, false_and, if_false] at update
    simp only [BitVec.le_def, BitVec.lt_def] at floor floorC below
    constructor <;> intros <;> rw [distance] <;> omega
  · rw [velocityUpdate_at_target, raiseTo_of_le lo c floor, distance_self, Nat.zero_sub]
    exact ⟨fun _ => rfl, fun _ h => absurd rfl h⟩
  · rw [accelFlag_of_ge c e (BitVec.le_of_lt above), distance_of_ge _ _ (BitVec.le_of_lt above)]
    have update := velocityUpdate_down lo c e a false (BitVec.ne_of_lt above).symm
    simp only [Bool.false_eq_true, false_and, if_false] at update
    simp only [BitVec.le_def, BitVec.lt_def] at floor floorC above
    constructor <;> intros <;> rw [distance] <;> omega

/-! ### The GETs of one segment (R157, R158) -/

theorem get_currC (cfg : Config) (clip : Bool) (r : Planner) (live : r.nextN[r.head] ≠ 0) :
    (r.get cfg clip).1.currC =
      velocityUpdate cfg.cMin r.currC r.endC r.accel (accelLookup cfg r.currC) clip := by
  rw [get_of_live cfg clip r live, consumeStep_currC, updated_currC]

theorem getTimes_succ (cfg : Config) (clip : Bool) (k : Nat) (r : Planner) :
    getTimes cfg clip (k + 1) r = ((getTimes cfg clip k r).get cfg clip).1 := by
  induction k generalizing r with
  | zero => rfl
  | succ k ih => exact ih (r.get cfg clip).1

/-- The steps left in the head segment. -/
def Planner.headSteps (r : Planner) : Nat := r.nextN[r.head].toNat

theorem live_of_headSteps (r : Planner) (h : 0 < r.headSteps) : r.nextN[r.head] ≠ 0 := fun free => by
  rw [Planner.headSteps, free] at h
  exact absurd h (by decide)

/-- A GET that leaves steps in the segment leaves the target and sets the flag right. -/
theorem get_in_segment (cfg : Config) (clip : Bool) (r : Planner) (more : 1 < r.headSteps) :
    (r.get cfg clip).1.endC = r.endC ∧ (r.get cfg clip).1.flagRight ∧
    (r.get cfg clip).1.headSteps = r.headSteps - 1 := by
  have live := live_of_headSteps r (Nat.zero_lt_of_lt more)
  have notLast : r.nextN[r.head] ≠ 1 := fun last => by
    rw [Planner.headSteps, last] at more
    exact absurd more (by decide)
  rw [get_of_more cfg clip r live notLast]
  refine ⟨rfl, rfl, ?_⟩
  have written := slot_set_self r.nextN r.head (r.nextN[r.head] - 1)
  refine (congrArg BitVec.toNat written).trans ?_
  rw [Planner.headSteps]
  bv_omega

theorem getTimes_in_segment (cfg : Config) (clip : Bool) (k : Nat) (r : Planner) (flag : r.flagRight)
    (left : k < r.headSteps) :
    (getTimes cfg clip k r).endC = r.endC ∧ (getTimes cfg clip k r).flagRight ∧
    (getTimes cfg clip k r).headSteps = r.headSteps - k := by
  induction k with
  | zero => exact ⟨rfl, flag, rfl⟩
  | succ k ih =>
    obtain ⟨target, -, count⟩ := ih (Nat.lt_of_succ_lt left)
    obtain ⟨target', flag', count'⟩ := get_in_segment cfg clip (getTimes cfg clip k r) (by omega)
    rw [getTimes_succ]
    exact ⟨target'.trans target, flag', by omega⟩

/-- Each GET of the segment updates `curr_c` towards the same target with the flag right. -/
theorem getTimes_currC (cfg : Config) (clip : Bool) (k : Nat) (r : Planner) (flag : r.flagRight)
    (left : k < r.headSteps) :
    (getTimes cfg clip (k + 1) r).currC =
      velocityUpdate cfg.cMin (getTimes cfg clip k r).currC r.endC
        (accelFlag (getTimes cfg clip k r).currC r.endC)
        (accelLookup cfg (getTimes cfg clip k r).currC) clip := by
  obtain ⟨target, right, count⟩ := getTimes_in_segment cfg clip k r flag left
  have live := live_of_headSteps (getTimes cfg clip k r) (by omega)
  rw [getTimes_succ, get_currC cfg clip _ live, right, target]

/-- Settles O33: each GET takes its word off the distance, and at the target there is none left. -/
theorem clippedGetsConverge : Obligations.ClippedGetsConverge := by
  intro cfg r m k flag floor fits words
  induction k with
  | zero => exact ⟨by rw [Nat.zero_mul]; exact Nat.le_refl _, id, id⟩
  | succ k ih =>
    obtain ⟨near, low, high⟩ := ih (Nat.le_of_succ_le fits) fun j hj => words j (Nat.lt_succ_of_lt hj)
    obtain ⟨taken, low', high'⟩ := velocityUpdate_clipped cfg.cMin (getTimes cfg true k r).currC r.endC
      (accelLookup cfg (getTimes cfg true k r).currC) floor
    rw [getTimes_currC cfg true k r flag fits]
    refine ⟨?_, fun h => low' (low h), fun h => high' (high h)⟩
    by_cases there : (getTimes cfg true k r).currC = r.endC
    · have near : distance (getTimes cfg true k r).currC r.endC = 0 := by rw [there, distance_self]
      omega
    · have word := words k (Nat.lt_succ_self k) there
      rw [Nat.succ_mul]
      omega

/-- Once within a bound that no table word exceeds, `curr_c` stays within it (R158), and not below `C_MIN`. -/
theorem unclipped_stays_within (cfg : Config) (r : Planner) (bound k : Nat) (flag : r.flagRight)
    (floor : cfg.cMin ≤ r.endC) (floorC : cfg.cMin ≤ r.currC) (near : distance r.currC r.endC < bound)
    (fits : k ≤ r.nextN[r.head].toNat)
    (words : ∀ j, j < k → (accelLookup cfg (getTimes cfg false j r).currC).toNat ≤ bound) :
    distance (getTimes cfg false k r).currC r.endC < bound ∧
    cfg.cMin ≤ (getTimes cfg false k r).currC := by
  induction k with
  | zero => exact ⟨near, floorC⟩
  | succ k ih =>
    obtain ⟨within, above⟩ := ih (Nat.le_of_succ_le fits) fun j hj => words j (Nat.lt_succ_of_lt hj)
    have word := words k (Nat.lt_succ_self k)
    obtain ⟨short, past⟩ := velocityUpdate_unclipped cfg.cMin (getTimes cfg false k r).currC r.endC
      (accelLookup cfg (getTimes cfg false k r).currC) floor above
    rw [getTimes_currC cfg false k r flag fits]
    refine ⟨?_, le_velocityUpdate _ _ _ _ _ _⟩
    by_cases reach : (accelLookup cfg (getTimes cfg false k r).currC).toNat ≤
        distance (getTimes cfg false k r).currC r.endC
    · rw [short reach]; omega
    · by_cases there : (getTimes cfg false k r).currC = r.endC
      · rw [there, velocityUpdate_at_target, raiseTo_of_le _ _ floor, distance_self]
        omega
      · exact (past (by omega) there).trans_le word

/-- Settles O34: the first two clauses are one update, the third the segment's. -/
theorem unclippedGetsStayWithinOneWord : Obligations.UnclippedGetsStayWithinOneWord := by
  intro cfg r flag floor floorC live
  obtain ⟨short, past⟩ :=
    velocityUpdate_unclipped cfg.cMin r.currC r.endC (accelLookup cfg r.currC) floor floorC
  rw [get_currC cfg false r live, flag]
  exact ⟨short, past, fun bound k near fits words =>
    (unclipped_stays_within cfg r bound k flag floor floorC near fits words).1⟩

end Sys2Proof.Machine
end

section
/-! SUPPORT. The phases (spec/43_phases_and_invariants.md R141, R142): which commands change the occupancy and
the motion phase, and what a GET does to the motion phase. -/

namespace Sys2Proof.Machine

/-! ### A command by its response (30_encoding.md R76, 60_exceptions.md R167) -/

/-- A command's response is `ERR` with no register written, or its rule's, with the rule performed. -/
theorem exec_answered (i : Instr) (s t : State) (rsp : Response) (h : exec i s = .next t)
    (answer : t.rsp s.port = some rsp) :
    (rsp = failWith .err ∧ t.planner = s.planner) ∨
    (rsp = (ruleOf i s.planner).2 ∧ t.planner = (ruleOf i s.planner).1) := by
  obtain ⟨-, rfl⟩ | ⟨-, rfl⟩ := exec_by_rule i s t h
  · rw [answer_rsp_self] at answer
    exact .inl ⟨(Option.some.inj answer).symm, answer_planner _ _ _⟩
  · rw [complete_rsp_self] at answer
    exact .inr ⟨(Option.some.inj answer).symm, complete_planner _ _ _ _ _⟩

theorem exec_ok (i : Instr) (s t : State) (rsp : Response) (h : exec i s = .next t)
    (answer : t.rsp s.port = some rsp) (ok : rsp.status = .ok) :
    rsp = (ruleOf i s.planner).2 ∧ t.planner = (ruleOf i s.planner).1 := by
  obtain ⟨rfl, -⟩ | performed := exec_answered i s t rsp h answer
  · cases ok
  · exact performed

theorem put_ok (steps speed : Word) (r : Planner) (ok : (r.put steps speed).2.status = .ok) :
    steps ≠ 0 ∧ r.nextN[r.tail] = 0 := by
  by_cases zero : steps = 0
  · rw [zero, put_of_zero] at ok; cases ok
  · refine ⟨zero, ?_⟩
    by_contra full
    rw [put_of_full _ _ _ zero full] at ok; cases ok

theorem beginDda_ok (target : Word) (r : Planner) (ok : (r.beginDda target).2.status = .ok) :
    r.nextN[r.head] ≠ 0 := fun empty => by
  rw [begin_of_empty _ _ empty] at ok; cases ok

theorem get_ok (cfg : Config) (clip : Bool) (r : Planner) (ok : (r.get cfg clip).2.status = .ok) :
    r.nextN[r.head] ≠ 0 ∧ (r.get cfg clip).2.data = (r.get cfg clip).1.currC := by
  have live : r.nextN[r.head] ≠ 0 := fun empty => by
    rw [get_of_empty _ _ _ empty] at ok; cases ok
  refine ⟨live, ?_⟩
  rw [get_of_live _ _ _ live]; rfl

/-- A command whose response is not `OK` writes no register (60_exceptions.md R167). -/
theorem rule_of_not_ok (i : Instr) (r : Planner) (failed : (ruleOf i r).2.status ≠ .ok) :
    (ruleOf i r).1 = r := by
  cases i with
  | init => exact absurd rfl failed
  | put steps speed =>
    by_cases zero : steps = 0
    · rw [zero]; rfl
    by_cases free : r.nextN[r.tail] = 0
    · rw [ruleOf, put_of_free _ _ _ zero free] at failed; exact absurd rfl failed
    · rw [ruleOf, put_of_full _ _ _ zero free]
  | beginDda target =>
    by_cases empty : r.nextN[r.head] = 0
    · rw [ruleOf, begin_of_empty _ _ empty]
    · rw [ruleOf, begin_of_live _ _ empty] at failed; exact absurd rfl failed
  | get clip =>
    by_cases empty : r.nextN[r.head] = 0
    · rw [ruleOf, get_of_empty _ _ _ empty]
    · rw [ruleOf, get_of_live _ _ _ empty] at failed; exact absurd rfl failed
  | full | empty | reserved0 | reserved7 | reserved8toF => rfl

/-! ### The phases after each command answered `OK` (R142) -/

theorem occupancy_of_free (r : Planner) (h : r.nextN[r.head] = 0) : r.occupancy = .idle := if_pos h

theorem occupancy_of_live (r : Planner) (h : r.nextN[r.head] ≠ 0) : r.occupancy = .draining := if_neg h

theorem put_motion (steps speed : Word) (r : Planner) : (r.put steps speed).1.motion = r.motion := by
  unfold Planner.put
  split
  · rfl
  · split <;> rfl

/-- Where the live slots are contiguous, an accepted PUT leaves the head slot live: it fills it, or it was live
already. -/
theorem put_occupancy (steps speed : Word) (r : Planner) (L : Nat) (live : r.Live L)
    (ok : (r.put steps speed).2.status = .ok) : (r.put steps speed).1.occupancy = .draining := by
  obtain ⟨nonzero, free⟩ := put_ok steps speed r ok
  have ring := ringOf_publish ((live_iff_ringOf r L).mp live) free steps nonzero
  rw [put_of_free _ _ _ nonzero free]
  exact occupancy_of_live _ ((ringOf_head_live_iff ring).mpr (Nat.succ_pos L))

theorem beginDda_phases (target : Word) (r : Planner) (ok : (r.beginDda target).2.status = .ok) :
    r.occupancy = .draining ∧ (r.beginDda target).1.occupancy = .draining ∧
    (r.beginDda target).1.motion = motionOf r.currC target := by
  have live := beginDda_ok target r ok
  rw [begin_of_live _ _ live]
  exact ⟨occupancy_of_live r live, occupancy_of_live r live, rfl⟩

/-- A GET that leaves steps stays in its segment. -/
theorem get_phases_of_more (cfg : Config) (clip : Bool) (r : Planner) (live : r.nextN[r.head] ≠ 0)
    (more : r.nextN[r.head] ≠ 1) :
    (r.get cfg clip).1.occupancy = .draining ∧
    (r.get cfg clip).1.motion = motionOf (r.get cfg clip).1.currC r.endC := by
  rw [get_of_more cfg clip r live more]
  refine ⟨occupancy_of_live _ ?_, rfl⟩
  refine ne_of_eq_of_ne (slot_set_self r.nextN r.head (r.nextN[r.head] - 1)) ?_
  bv_omega

/-- The last step of a segment with another one behind it loads that one's target. -/
theorem get_phases_of_loaded (cfg : Config) (clip : Bool) (r : Planner) (last : r.nextN[r.head] = 1)
    (behind : r.nextN[r.head + 1] ≠ 0) :
    (r.get cfg clip).1.occupancy = .draining ∧
    (r.get cfg clip).1.motion =
      motionOf (r.get cfg clip).1.currC (r.endC + r.nextDc[r.head + 1]) := by
  rw [get_of_last_next_live cfg clip r last behind]
  exact ⟨occupancy_of_live _ ((advanceHead_next_nextN (r.updated cfg clip)).trans_ne behind), rfl⟩

/-- The last step of the last segment leaves the queue empty and the target as it was. -/
theorem get_phases_of_drained (cfg : Config) (clip : Bool) (r : Planner) (last : r.nextN[r.head] = 1)
    (behind : r.nextN[r.head + 1] = 0) :
    (r.get cfg clip).1.occupancy = .idle ∧
    (r.get cfg clip).1.motion = motionOf (r.get cfg clip).1.currC r.endC := by
  rw [get_of_last_next_free cfg clip r last behind]
  exact ⟨occupancy_of_free _ ((advanceHead_next_nextN (r.updated cfg clip)).trans behind), rfl⟩

/-- Settles O45: a command that fails, EMPTY and FULL write no register, and each other command has its own
lemma. -/
theorem onlyTheseEventsChangeAPhase : Obligations.OnlyTheseEventsChangeAPhase := by
  intro i s t rsp h answer
  constructor
  · intro failed
    have kept : t.planner = s.planner := by
      obtain ⟨-, kept⟩ | ⟨rfl, performed⟩ := exec_answered i s t rsp h answer
      · exact kept
      · rw [performed]
        obtain failed | rfl | rfl := failed
        · exact rule_of_not_ok i s.planner failed
        · rfl
        · rfl
    rw [kept]
    exact ⟨rfl, rfl⟩
  · intro ok
    obtain ⟨rfl, performed⟩ := exec_ok i s t rsp h answer ok
    rw [performed]
    cases i with
    | init => exact ⟨occupancy_of_free _ (reset_slot_free _ _), reset_motion _⟩
    | put steps speed =>
      exact ⟨put_motion steps speed _, fun L live => put_occupancy steps speed _ L live ok⟩
    | beginDda target => exact beginDda_phases target _ ok
    | get clip =>
      obtain ⟨live, -⟩ := get_ok _ clip s.planner ok
      refine ⟨occupancy_of_live _ live, ?_⟩
      split
      · exact get_phases_of_more _ clip _ live ‹_›
      rename_i last
      split
      · exact get_phases_of_loaded _ clip _ (not_not.mp last) ‹_›
      · exact get_phases_of_drained _ clip _ (not_not.mp last) (not_not.mp ‹_›)
    | full | empty | reserved0 | reserved7 | reserved8toF => trivial

/-! ### The motion phase after a GET (R141, R142) -/

theorem motionOf_self (c : Word) : motionOf c c = .cruise := if_pos rfl

theorem motionOf_of_lt (c e : Word) (h : c < e) : motionOf c e = .rampUp := by
  rw [motionOf, if_neg (BitVec.ne_of_lt h), if_pos h]

theorem motionOf_of_gt (c e : Word) (h : e < c) : motionOf c e = .rampDown := by
  rw [motionOf, if_neg (BitVec.ne_of_lt h).symm, if_neg (BitVec.not_lt.mpr (BitVec.le_of_lt h))]

/-- A ramp up goes on while the table word is less than the distance; `clip`, an exact landing and saturation
on a target at the end of the range stop it there, and anything else passes it. -/
theorem motionOf_velocityUpdate_up (lo c e a : Word) (clip : Bool) (floor : lo ≤ e) (floorC : lo ≤ c)
    (below : c < e) :
    motionOf (velocityUpdate lo c e true a clip) e =
      if a.toNat < distance c e then .rampUp
      else if clip = true ∨ a.toNat = distance c e ∨ e = 0xFFFFFFFF then .cruise else .rampDown := by
  have update := velocityUpdate_up lo c e a clip (BitVec.ne_of_lt below)
  rw [distance_of_le _ _ (BitVec.le_of_lt below)]
  generalize velocityUpdate lo c e true a clip = c' at update ⊢
  rw [BitVec.le_def] at floor floorC
  rw [BitVec.lt_def] at below
  split
  · rw [if_neg (by omega)] at update
    exact motionOf_of_lt _ _ (by rw [BitVec.lt_def]; omega)
  rename_i far
  split
  · rename_i stops
    have landed : c' = e := BitVec.eq_of_toNat_eq (by
      obtain clips | exactly | top := stops
      · rw [if_pos ⟨clips, by omega⟩] at update; omega
      · split at update <;> omega
      · have top : e.toNat = 2 ^ 32 - 1 := congrArg BitVec.toNat top
        split at update <;> omega)
    rw [landed, motionOf_self]
  · rename_i passes
    obtain ⟨unclipped, notExact, notTop⟩ := by simpa only [not_or] using passes
    have notTop : e.toNat ≠ 2 ^ 32 - 1 := fun top => notTop (BitVec.eq_of_toNat_eq top)
    rw [if_neg fun clipped => unclipped clipped.1] at update
    exact motionOf_of_gt _ _ (by rw [BitVec.lt_def]; omega)

/-- A ramp down likewise; what stops it at the end of the range is the floor. -/
theorem motionOf_velocityUpdate_down (lo c e a : Word) (clip : Bool) (floor : lo ≤ e) (above : e < c) :
    motionOf (velocityUpdate lo c e false a clip) e =
      if a.toNat < distance c e then .rampDown
      else if clip = true ∨ a.toNat = distance c e ∨ e = lo then .cruise else .rampUp := by
  have update := velocityUpdate_down lo c e a clip (BitVec.ne_of_lt above).symm
  rw [distance_of_ge _ _ (BitVec.le_of_lt above)]
  generalize velocityUpdate lo c e false a clip = c' at update ⊢
  rw [BitVec.le_def] at floor
  rw [BitVec.lt_def] at above
  split
  · rw [if_neg (by omega)] at update
    exact motionOf_of_gt _ _ (by rw [BitVec.lt_def]; omega)
  rename_i far
  split
  · rename_i stops
    have landed : c' = e := BitVec.eq_of_toNat_eq (by
      obtain clips | exactly | bottom := stops
      · rw [if_pos ⟨clips, by omega⟩] at update; omega
      · split at update <;> omega
      · have bottom : e.toNat = lo.toNat := congrArg BitVec.toNat bottom
        split at update <;> omega)
    rw [landed, motionOf_self]
  · rename_i passes
    obtain ⟨unclipped, notExact, notBottom⟩ := by simpa only [not_or] using passes
    have notBottom : e.toNat ≠ lo.toNat := fun bottom => notBottom (BitVec.eq_of_toNat_eq bottom)
    rw [if_neg fun clipped => unclipped clipped.1] at update
    exact motionOf_of_lt _ _ (by rw [BitVec.lt_def]; omega)

/-- Settles O54: the flag right, the update runs towards the target, and each phase is one side of it. -/
theorem getMovesTheMotionPhase : Obligations.GetMovesTheMotionPhase := by
  intro clip s t d onC flag floorC floor h ok
  have answer : t.rsp s.port = some ⟨.ok, d⟩ := by rw [onC]; exact ok
  obtain ⟨response, registers⟩ := exec_ok (.get clip) s t ⟨.ok, d⟩ h answer rfl
  obtain ⟨live, data⟩ := get_ok _ clip s.planner (congrArg Response.status response.symm)
  have moved : d = t.planner.currC := by
    rw [registers]
    exact (congrArg Response.data response).trans data
  refine ⟨moved, ?_⟩
  rw [moved, registers, ruleOf, get_currC _ clip _ live, flag, Planner.motion]
  obtain below | same | above := speed_trichotomy s.planner.currC s.planner.endC
  · rw [accelFlag_of_lt _ _ below, motionOf_of_lt _ _ below]
    exact motionOf_velocityUpdate_up _ _ _ _ clip floor floorC below
  · rw [same, velocityUpdate_at_target, raiseTo_of_le _ _ floor, motionOf_self]
  · rw [accelFlag_of_ge _ _ (BitVec.le_of_lt above), motionOf_of_gt _ _ above]
    exact motionOf_velocityUpdate_down _ _ _ _ clip floor above

end Sys2Proof.Machine
end

section
/-! SUPPORT. Target tracking (spec/43_phases_and_invariants.md R155): the deltas of the live segments lead from
each segment's speed to the next, and `end_c` is the head segment's. -/

namespace Sys2Proof.Machine

/-! ### The deltas behind a slot -/

/-- A delta written behind the last segment extends the chain; the slots before it keep theirs. -/
theorem chain_append (dc : Vector Word 4) (planC w : Word) (t i : SlotIx) (v : Word) (vs : List Word)
    (h : chain dc planC i v vs) (after : t.val = (i.val + (vs.length + 1)) % 4)
    (room : vs.length + 1 < 4) : chain (dc.set t (subMod w planC)) w i v (vs ++ [w]) := by
  induction vs generalizing i v with
  | nil =>
    obtain rfl : t = ringSucc i := Fin.ext after
    obtain rfl : planC = v := h
    exact ⟨slot_set_self dc (ringSucc i) _, rfl⟩
  | cons u us ih =>
    obtain ⟨delta, rest⟩ := h
    have other : t ≠ ringSucc i := fun same => by
      have place := congrArg Fin.val same
      rw [after, ringSucc, Fin.val_add] at place
      simp only [List.length_cons] at place room
      omega
    refine ⟨(slot_set_ne dc t (ringSucc i) _ other).trans delta,
      ih (ringSucc i) u rest ?_ (Nat.lt_of_succ_lt room)⟩
    rw [after, ringSucc, Fin.val_add, List.length_cons]
    show _ = ((i.val + 1) % 4 + _) % 4
    omega

/-! ### The queue as a list of speeds, command by command -/

theorem queued_head_live (r : Planner) (v : Word) (vs : List Word) (h : r.Queued v vs) :
    r.nextN[r.head] ≠ 0 :=
  (ringOf_head_live_iff ((live_iff_ringOf r _).mp h.1)).mpr (Nat.succ_pos _)

/-- A PUT into an empty queue makes its segment the head one. -/
theorem put_queued_first (steps w : Word) (r : Planner) (empty : r.Live 0)
    (ok : (r.put steps w).2.status = .ok) : (r.put steps w).1.Queued w [] := by
  obtain ⟨nonzero, free⟩ := put_ok steps w r ok
  rw [put_of_free _ _ _ nonzero free]
  exact ⟨ringOf_publish ((live_iff_ringOf r 0).mp empty) free steps nonzero, rfl⟩

/-- A PUT behind live segments queues its speed last. -/
theorem put_queued (steps w : Word) (r : Planner) (v : Word) (vs : List Word) (queued : r.Queued v vs)
    (ok : (r.put steps w).2.status = .ok) :
    (r.put steps w).1.Queued v (vs ++ [w]) ∧ (r.put steps w).1.endC = r.endC := by
  obtain ⟨nonzero, free⟩ := put_ok steps w r ok
  obtain ⟨live, deltas⟩ := queued
  have ring := ringOf_publish ((live_iff_ringOf r _).mp live) free steps nonzero
  obtain ⟨room, -, -⟩ := id ring
  obtain ⟨-, tail, -⟩ := live
  rw [put_of_free _ _ _ nonzero free]
  refine ⟨⟨?_, chain_append r.nextDc r.planC w r.tail r.head v vs deltas tail room⟩, rfl⟩
  rw [List.length_append]
  exact ring

theorem beginDda_tracks (r : Planner) (v : Word) (vs : List Word) (queued : r.Queued v vs) :
    (r.beginDda v).1.Tracks v vs := by
  rw [begin_of_live v r (queued_head_live r v vs queued)]
  exact ⟨queued, rfl⟩

/-- A GET that leaves steps keeps the segments and the target. -/
theorem get_queued_of_more (cfg : Config) (clip : Bool) (r : Planner) (v : Word) (vs : List Word)
    (queued : r.Queued v vs) (more : r.nextN[r.head] ≠ 1) :
    (r.get cfg clip).1.Queued v vs ∧ (r.get cfg clip).1.endC = r.endC := by
  have live := queued_head_live r v vs queued
  obtain ⟨ring, deltas⟩ := queued
  rw [get_of_more cfg clip r live more]
  exact ⟨⟨ringOf_set_live ((live_iff_ringOf r _).mp ring) r.head live _ (by bv_omega), deltas⟩, rfl⟩

/-- A GET that retires a segment drops it, and loads the target of the one behind. -/
theorem get_queued_of_last (cfg : Config) (clip : Bool) (r : Planner) (v w : Word) (vs : List Word)
    (queued : r.Queued v (w :: vs)) (last : r.nextN[r.head] = 1) :
    (r.get cfg clip).1.Queued w vs ∧ (r.get cfg clip).1.endC = r.endC + subMod w v := by
  obtain ⟨ring, delta, deltas⟩ := queued
  have live := ring.2.2
  have behind : r.nextN[r.head + 1] ≠ 0 := (live 1).mpr (Nat.lt_of_sub_pos (Nat.succ_pos _))
  rw [get_of_last_next_live cfg clip r last behind]
  exact ⟨⟨ringOf_retire ((live_iff_ringOf r _).mp ring), deltas⟩, congrArg (r.endC + ·) delta⟩

/-- The GET of the last step of all leaves the queue empty. -/
theorem get_live_of_drained (cfg : Config) (clip : Bool) (r : Planner) (v : Word)
    (queued : r.Queued v []) (last : r.nextN[r.head] = 1) : (r.get cfg clip).1.Live 0 := by
  obtain ⟨ring, -⟩ := queued
  obtain ⟨-, -, live⟩ := id ring
  have behind : r.nextN[r.head + 1] = 0 := by
    by_contra filled
    exact absurd ((live 1).mp filled) (by decide)
  rw [get_of_last_next_free cfg clip r last behind]
  exact ringOf_retire ((live_iff_ringOf r _).mp ring)

/-! ### The commands on the port that takes them -/

theorem exec_accepted (i : Instr) (s t : State) (accepted : acceptedOn i s.port = true)
    (h : exec i s = .next t) : t.planner = (ruleOf i s.planner).1 := by
  obtain ⟨rejected, -⟩ | ⟨-, rfl⟩ := exec_by_rule i s t h
  · cases rejected.symm.trans accepted
  · exact complete_planner _ _ _ _ _

theorem exec_put_ok (s t : State) (steps w : Word) (onP : s.port = .P)
    (h : exec (.put steps w) s = .next t) (ok : t.rspP = some ⟨.ok, 0⟩) :
    (s.planner.put steps w).2.status = .ok ∧ t.planner = (s.planner.put steps w).1 := by
  have answer : t.rsp s.port = some ⟨.ok, 0⟩ := by rw [onP]; exact ok
  obtain ⟨response, performed⟩ := exec_ok (.put steps w) s t _ h answer rfl
  exact ⟨(congrArg Response.status response).symm, performed⟩

theorem exec_get_onC (s t : State) (clip : Bool) (onC : s.port = .C)
    (h : exec (.get clip) s = .next t) : t.planner = (s.planner.get Config.platform clip).1 :=
  exec_accepted (.get clip) s t (by rw [onC]; rfl) h

/-- Settles O46, clause by clause. -/
theorem endCIsTheHeadSegmentsSpeed : Obligations.EndCIsTheHeadSegmentsSpeed := by
  refine ⟨fun s t onP h => ?_, fun s t w steps onP empty h ok => ?_,
    fun s t v vs onC queued h => ?_, fun s t v w steps vs onP queued h ok => ?_,
    fun s t v vs clip onC queued h more => ?_, fun s t v w vs clip onC queued last h => ?_,
    fun s t v clip onC queued last h => ?_⟩
  · rw [exec_accepted .init s t (by rw [onP]; rfl) h]
    exact ⟨Nat.zero_le _, rfl,
      fun k => iff_of_false (not_not_intro (reset_slot_free 0 _)) k.val.not_lt_zero⟩
  · obtain ⟨accepted, performed⟩ := exec_put_ok s t steps w onP h ok
    rw [performed]
    exact put_queued_first steps w s.planner empty accepted
  · rw [exec_accepted (.beginDda v) s t (by rw [onC]; rfl) h]
    exact beginDda_tracks s.planner v vs queued
  · obtain ⟨accepted, performed⟩ := exec_put_ok s t steps w onP h ok
    obtain ⟨queued', target⟩ := put_queued steps w s.planner v vs queued accepted
    rw [performed]
    exact ⟨queued', fun tracks => ⟨queued', target.trans tracks.2⟩⟩
  · obtain ⟨queued', target⟩ := get_queued_of_more Config.platform clip s.planner v vs queued more
    rw [exec_get_onC s t clip onC h]
    exact ⟨queued', fun tracks => ⟨queued', target.trans tracks.2⟩⟩
  · obtain ⟨queued', target⟩ := get_queued_of_last Config.platform clip s.planner v w vs queued last
    rw [exec_get_onC s t clip onC h]
    refine ⟨queued', fun tracks => ⟨queued', ?_⟩⟩
    rw [target, tracks.2, subMod, add_sub_cancel]
  · rw [exec_get_onC s t clip onC h]
    exact get_live_of_drained Config.platform clip s.planner v queued last

end Sys2Proof.Machine
end

section
/-! SUPPORT. FILL keeps the descriptors within their requests (spec/43_phases_and_invariants.md R159,
spec/42_filler.md R128 to R130): it asks for no more than is left, and credits what it asked for. -/

namespace Sys2Proof.Machine

/-! ### Writes to the descriptors -/

theorem fillInv_of_same (s t : State) (fill : t.fill = s.fill) (ddas : t.ddas = s.ddas)
    (inv : s.FillInv) : t.FillInv where
  within := ddas ▸ inv.within
  running l hl := by
    rw [State.descriptor, ddas]
    exact inv.running l (fill ▸ hl)

/-- Writing a descriptor and reading one. -/
theorem getElem?_set_descriptor (ddas : List Descriptor) (j k : Nat) (d d' : Descriptor)
    (hj : ddas[j]? = some d) : (ddas.set j d')[k]? = if j = k then some d' else ddas[k]? := by
  obtain ⟨below, -⟩ := List.getElem?_eq_some_iff.mp hj
  rw [List.getElem?_set, if_pos below]

/-- A descriptor within its request, written in a list of such. -/
theorem within_set (ddas : List Descriptor) (j : Nat) (d : Descriptor) (hd : d.wf = true)
    (within : ∀ d ∈ ddas, d.wf = true) : ∀ d' ∈ ddas.set j d, d'.wf = true := fun d' mem => by
  obtain old | rfl := List.mem_or_eq_of_mem_set mem
  · exact within d' old
  · exact hd

theorem wf_iff (d : Descriptor) : d.wf = true ↔ d.queuedSteps ≤ d.totalSteps := decide_eq_true_iff

/-- Crediting no more steps than are left stays within the request, without wrapping (42_filler.md R128 L5). -/
theorem creditDescriptor_wf (d : Descriptor) (n : Word) (hd : d.wf = true)
    (fits : n ≤ d.totalSteps - d.queuedSteps) : (creditDescriptor d n).wf = true := by
  rw [wf_iff] at hd ⊢
  show d.queuedSteps + n ≤ d.totalSteps
  bv_omega

/-! ### Each kind of step -/

theorem stepFlight_ddas (s : State) (p : Port) (f : Flight) : (s.stepFlight p f).ddas = s.ddas := by
  unfold State.stepFlight; split <;> simp

theorem exec_fill_ddas (i : Instr) (s t : State) (h : exec i s = .next t) :
    t.fill = s.fill ∧ t.ddas = s.ddas := by
  obtain ⟨-, rfl⟩ | ⟨-, rfl⟩ := exec_by_rule i s t h
  · exact ⟨answer_fill _ _ _, answer_ddas _ _ _⟩
  · exact ⟨complete_fill _ _ _ _ _, complete_ddas _ _ _ _ _⟩

theorem startCommand_fill_ddas (p : Port) (w : CmdWord) (s t : State)
    (h : startCommand p w s = .next t) : t.fill = s.fill ∧ t.ddas = s.ddas := by
  obtain ⟨-, rfl, -⟩ | ⟨m, -, -, rfl⟩ := startCommand_next p w s t h
  · exact ⟨answer_fill _ _ _, answer_ddas _ _ _⟩
  · exact ⟨launch_fill _ _ _ _, launch_ddas _ _ _ _⟩

/-- An action of the call asks for an entry within what is left (R129), or credits the one it asked for. -/
theorem stepFill_fillInv (s t : State) (l : FillLoop) (hl : s.fill = some l) (inv : s.FillInv)
    (h : s.stepFill l = .next t) : t.FillInv := by
  obtain ⟨d, hd, ⟨-, left, -, rfl⟩ | ⟨-, -, rfl⟩ | ⟨n, asked, -, rfl⟩ | ⟨n, -, -, rfl⟩⟩ :=
    stepFill_next s t l h
  · refine ⟨inv.within, fun l' hl' => ?_⟩
    cases hl'
    refine ⟨d, hd, fun n hn => ?_⟩
    cases hn
    exact ⟨fillEntry_steps_ne_zero _ d left, fillEntry_steps_le _ d left⟩
  · exact ⟨inv.within, nofun⟩
  · obtain ⟨d', hd', fits⟩ := inv.running l hl
    cases hd.symm.trans hd'
    have wf := creditDescriptor_wf d n (inv.within d (List.mem_of_getElem? hd)) (fits n asked).2
    refine ⟨within_set s.ddas l.ref _ wf inv.within, fun l' hl' => ?_⟩
    cases hl'
    refine ⟨creditDescriptor d n, ?_, nofun⟩
    exact (getElem?_set_descriptor s.ddas l.ref l.ref d _ hd).trans (if_pos rfl)
  · exact ⟨inv.within, nofun⟩

theorem advance_fillInv (p : Port) (s t : State) (inv : s.FillInv) (h : advance p s = .next t) :
    t.FillInv := by
  obtain ⟨f, -, rfl⟩ | ⟨-, -, l, hl, hs⟩ | ⟨-, rfl⟩ := advance_next p s t h
  · exact fillInv_of_same s _ (stepFlight_fill s p f) (stepFlight_ddas s p f) inv
  · exact stepFill_fillInv s t l hl inv hs
  · exact inv

theorem startFill_fillInv (ref : Nat) (s t : State) (inv : s.FillInv)
    (h : startFill ref s = .next t) : t.FillInv := by
  obtain ⟨-, -, ⟨d, hd⟩, rfl⟩ := startFill_next ref s t h
  refine ⟨inv.within, fun l hl => ?_⟩
  cases hl
  exact ⟨d, hd, nofun⟩

/-- A new descriptor has nothing queued, and leaves the others where they are. -/
theorem createDescriptor_fillInv (s : State) (n v : Word) (inv : s.FillInv) :
    (s.createDescriptor n v).FillInv where
  within d mem := by
    obtain old | new := List.mem_append.mp mem
    · exact inv.within d old
    · cases List.mem_singleton.mp new
      exact (wf_iff _).mpr (BitVec.le_def.mpr (Nat.zero_le _))
  running l hl := by
    obtain ⟨d, hd, fits⟩ := inv.running l hl
    obtain ⟨below, -⟩ := List.getElem?_eq_some_iff.mp hd
    exact ⟨d, (List.getElem?_append_left below).trans hd, fits⟩

/-- The owner's write keeps what is queued, and what FILL has asked for still fits where it requests no fewer
steps. -/
theorem amendDescriptor_fillInv (s : State) (ref : Nat) (n v : Word) (inv : s.FillInv)
    (notShorter : ∀ d, s.descriptor ref = some d → d.totalSteps ≤ n) :
    (s.amendDescriptor ref n v).FillInv := by
  cases hd : s.descriptor ref with
  | none => rw [amendDescriptor_of_none s ref n v hd]; exact inv
  | some d =>
    have room := notShorter d hd
    have wf := (wf_iff d).mp (inv.within d (List.mem_of_getElem? hd))
    rw [amendDescriptor_of_some s ref n v d hd]
    refine ⟨within_set s.ddas ref _ ((wf_iff _).mpr (BitVec.le_trans wf room)) inv.within,
      fun l hl => ?_⟩
    obtain ⟨d', hd', fits⟩ := inv.running l hl
    have read := getElem?_set_descriptor s.ddas ref l.ref d ⟨n, v, d.queuedSteps⟩ hd
    by_cases same : ref = l.ref
    · subst same
      cases hd.symm.trans hd'
      refine ⟨_, read.trans (if_pos rfl), fun steps asked => ?_⟩
      obtain ⟨nonzero, left⟩ := fits steps asked
      refine ⟨nonzero, ?_⟩
      show steps ≤ n - d.queuedSteps
      bv_omega
    · exact ⟨d', (read.trans (if_neg same)).trans hd', fits⟩

/-- Settles O48: FILL's own actions and the owner's writes are all that touch a descriptor. -/
theorem fillNeverQueuesTooMuch : Obligations.FillNeverQueuesTooMuch := by
  intro s t inv notShorter h
  have withInputs (rest : List Event) : (s.withInputs rest).FillInv := fillInv_of_same s _ rfl rfl inv
  obtain ⟨p, w, rest, -, he⟩ | ⟨p, w, rest, -, hw⟩ | ⟨p, rest, -, ha⟩ | ⟨ref, rest, -, hf⟩ |
    ⟨n, v, rest, -, rfl⟩ | ⟨ref, n, v, rest, hi, rfl⟩ := step_next s t h
  · obtain ⟨fill, ddas⟩ := exec_fill_ddas _ (s.taking p rest) t he
    exact fillInv_of_same s t fill ddas inv
  · obtain ⟨fill, ddas⟩ := startCommand_fill_ddas p w (s.withInputs rest) t hw
    exact fillInv_of_same s t fill ddas inv
  · exact advance_fillInv p _ t (withInputs rest) ha
  · exact startFill_fillInv ref _ t (withInputs rest) hf
  · exact createDescriptor_fillInv _ n v (withInputs rest)
  · exact amendDescriptor_fillInv _ ref n v (withInputs rest) fun d => notShorter ref n v rest d hi

end Sys2Proof.Machine
end

section
/-! SUPPORT. The statements of spec/60_exceptions.md: no step faults (R160), what goes on with nothing presented
(R165, R172), which condition a command reports (R166), a command that fails writes no register (R167), and each
agent writes its own registers (R169). -/

namespace Sys2Proof.Machine

/-! ### No step faults (60_exceptions.md R160) -/

theorem exec_ne_fault (i : Instr) (s : State) (f : Fault) : exec i s ≠ .fault f := by
  rw [exec_eq_perform]
  exact perform_ne_fault s i (ruleOf i) f

theorem startCommand_ne_fault (p : Port) (w : CmdWord) (s : State) (f : Fault) :
    startCommand p w s ≠ .fault f := by
  unfold startCommand
  split
  · split <;> nofun
  · split <;> nofun

theorem startFill_ne_fault (ref : Nat) (s : State) (f : Fault) : startFill ref s ≠ .fault f := by
  unfold startFill
  split_ifs <;> nofun

theorem stepFill_ne_fault (s : State) (l : FillLoop) (f : Fault) : s.stepFill l ≠ .fault f := by
  unfold State.stepFill
  split
  · nofun
  · split <;> split_ifs <;> nofun

theorem advance_ne_fault (p : Port) (s : State) (f : Fault) : advance p s ≠ .fault f := by
  unfold advance
  split
  · nofun
  · cases p with
    | P =>
      simp only [State.resume]
      split
      · exact stepFill_ne_fault s _ f
      · nofun
    | C => nofun

theorem goOn_ne_fault (s : State) (f : Fault) : goOn s ≠ .fault f := by
  unfold goOn
  split <;> exact advance_ne_fault _ s f

/-- Settles O9: each kind of step answers a next state or is refused. -/
theorem noStepFaults : Obligations.NoStepFaults := by
  intro s f
  unfold step
  split
  case h_1 => exact goOn_ne_fault s f
  case h_2 => exact exec_ne_fault _ _ f
  case h_3 => exact startCommand_ne_fault _ _ _ f
  case h_4 => exact advance_ne_fault _ _ f
  case h_5 => exact startFill_ne_fault _ _ f
  case h_6 | h_7 => nofun

/-! ### With nothing presented (60_exceptions.md R165, R172) -/

theorem step_of_no_input (s : State) (hi : s.inputs = []) : step s = goOn s := by
  unfold step; rw [hi]

theorem goOn_of_flightC (s : State) (h : s.flightC ≠ none) : goOn s = advance .C s :=
  if_pos (Option.isSome_iff_ne_none.mpr h)

theorem goOn_of_no_flightC (s : State) (h : s.flightC = none) : goOn s = advance .P s := by
  unfold goOn; rw [h]; rfl

/-- The last input being port `p`'s next micro-step, the step is that micro-step. -/
theorem step_last_micro (s : State) (p : Port) (hi : s.inputs = []) :
    step { s with inputs := [.micro p] } = advance p s := by
  rw [step_micro _ p [] rfl]
  exact congrArg (advance p) (withInputs_self s [] hi)

/-- Settles O10: both agents are idle, so that what goes on is nothing. -/
theorem idleStepChangesNothing : Obligations.IdleStepChangesNothing := by
  rintro s hi ⟨idleP, idleC, noFill⟩
  rw [step_of_no_input s hi, goOn_of_no_flightC s idleC]
  exact advance_of_idle s .P ⟨idleP, fun _ => noFill⟩

/-- Settles O51: `goOn` asks for port C's transaction first. -/
theorem stepWithoutInputGoesOnConsumerFirst : Obligations.StepWithoutInputGoesOnConsumerFirst := by
  intro s hi
  rw [step_last_micro s .C hi, step_last_micro s .P hi, step_of_no_input s hi]
  exact ⟨goOn_of_flightC s, goOn_of_no_flightC s⟩

/-! ### The condition a command reports (60_exceptions.md R166) -/

theorem put_status (steps speed : Word) (r : Planner) :
    (r.put steps speed).2.status =
      if steps = 0 then .err else if r.nextN[r.tail] ≠ 0 then .full else .ok := by
  split_ifs with zero full
  · rw [zero, put_of_zero]; rfl
  · rw [put_of_full _ _ _ zero full]; rfl
  · rw [put_of_free _ _ _ zero (not_not.mp full)]; rfl

theorem beginDda_status (target : Word) (r : Planner) :
    (r.beginDda target).2.status = if r.nextN[r.head] = 0 then .empty else .ok := by
  split_ifs with empty
  · rw [begin_of_empty _ _ empty]; rfl
  · rw [begin_of_live _ _ empty]; rfl

theorem get_status (cfg : Config) (clip : Bool) (r : Planner) :
    (r.get cfg clip).2.status = if r.nextN[r.head] = 0 then .empty else .ok := by
  split_ifs with empty
  · rw [get_of_empty _ _ _ empty]; rfl
  · rw [get_of_live _ _ _ empty]; rfl

theorem isInit_of_ne (i : Instr) (h : i ≠ .init) : isInit i = false := by
  cases i with
  | init => exact absurd rfl h
  | _ => rfl

/-- A ready port accepts each command that is its own, INIT where no consumer command is in flight. -/
theorem admission_of_ready_own (i : Instr) (s : State) (ready : s.ready)
    (alone : i = .init → s.port = .P → s.flightC = none) (own : acceptedOn i s.port = true) :
    s.admission s.port i = .accept := by
  by_cases init : i = .init
  · subst init
    have onP : s.port = .P := acceptedOn_init s.port own
    rw [State.ready, onP] at ready
    obtain ⟨-, idleP, noFill⟩ := ready
    rw [onP]
    exact admission_init_of_quiet s ⟨idleP, alone rfl onP, noFill⟩
  · obtain ⟨inited, free, noInit⟩ := inited_free_noInit_of_ready s ready
    exact admission_of_ready s s.port i free own (isInit_of_ne i init) inited noInit

/-- On a ready port a command is answered: with its rule's status where the port takes it, else `ERR`. -/
theorem exec_status_of_ready (i : Instr) (s : State) (ready : s.ready)
    (alone : i = .init → s.port = .P → s.flightC = none) :
    ∃ t, exec i s = .next t ∧
      (t.rsp s.port).map (·.status) =
        some (if acceptedOn i s.port = true then (ruleOf i s.planner).2.status else .err) := by
  by_cases own : acceptedOn i s.port = true
  · have accept := admission_of_ready_own i s ready alone own
    refine ⟨_, (exec_eq_perform i s).trans (perform_of_accept s i _ accept), ?_⟩
    rw [complete_rsp_self, if_pos own]; rfl
  · obtain ⟨-, free, -⟩ := inited_free_noInit_of_ready s ready
    refine ⟨_, exec_of_not_accepted s s.port i rfl free (Bool.eq_false_iff.mpr own), ?_⟩
    rw [answer_rsp_self, if_neg own]; rfl

/-- Settles O7: the port comes before the command's rule, and within the rule PUT tests its steps before the
queue. -/
theorem firstConditionIsReported : Obligations.FirstConditionIsReported := by
  intro i s ready alone
  obtain ⟨t, performed, status⟩ := exec_status_of_ready i s ready alone
  refine ⟨t, performed, status.trans (congrArg some ?_)⟩
  cases i with
  | put steps speed =>
    cases s.port with
    | P => exact put_status steps speed s.planner
    | C => rfl
  | get clip =>
    cases s.port with
    | P => rfl
    | C => exact get_status _ clip s.planner
  | beginDda target =>
    cases s.port with
    | P => rfl
    | C => exact beginDda_status target s.planner
  | init | full | empty => cases s.port <;> rfl
  | reserved0 | reserved7 | reserved8toF => rfl

/-! ### A command that fails writes no register (60_exceptions.md R167) -/

/-- The micro-steps up to a command's test: from them alone can a response other than `OK` still come. -/
def Micro.untested : Micro → Bool
  | .p0 .. | .p1 .. | .p2 .. | .b1 _ | .b2 .. | .g1 _ | .g2 .. => true
  | _ => false

theorem microStep_of_untested (cfg : Config) (m : Micro) (r : Planner) (h : m.untested = true) :
    (microStep cfg m r).1 = r := by
  cases m
  case p0 | p1 | p2 | b1 | b2 | g1 | g2 => rfl
  all_goals cases h

/-- A micro-step that answers a status other than `OK` is one of the tests P0, P2, B2 and G2. -/
theorem untested_of_failed (cfg : Config) (m : Micro) (r : Planner) (rsp : Response)
    (h : (microStep cfg m r).2 = .done rsp) (failed : rsp.status ≠ .ok) : m.untested = true := by
  cases m
  case p0 | p1 | p2 | b1 | b2 | g1 | g2 => rfl
  case i5 | p8 | e3 | f3 | b5 | g14 => cases h; exact absurd rfl failed
  case g7 | g10 => simp only [microStep] at h; split at h <;> cases h
  all_goals cases h

/-- A command past its test stays past it. -/
theorem untested_of_go (cfg : Config) (m m' : Micro) (r : Planner)
    (h : (microStep cfg m r).2 = .go m') (untested : m'.untested = true) : m.untested = true := by
  cases m
  case p0 | p1 | p2 | b1 | b2 | g1 | g2 => rfl
  case g7 | g10 => simp only [microStep] at h; split at h <;> cases h <;> cases untested
  all_goals cases h <;> cases untested

/-- A command that comes to fail has not passed its test, whatever the other agent does. -/
theorem untested_of_driven (cfg : Config) (env : Nat → Planner) (k j : Nat) (m : Micro) (rsp : Response)
    (h : driven cfg env k j m = .done rsp) (failed : rsp.status ≠ .ok) : m.untested = true := by
  induction k generalizing j m with
  | zero => cases h
  | succ k ih =>
    rw [driven] at h
    cases hm : (microStep cfg m (env j)).2 with
    | go m' => rw [hm] at h; exact untested_of_go cfg m m' (env j) hm (ih (j + 1) m' h)
    | done rsp' => rw [hm] at h; cases h; exact untested_of_failed cfg m (env j) rsp hm failed

theorem drivenReads_of_failed (cfg : Config) (env : Nat → Planner) (k j : Nat) (m : Micro)
    (rsp : Response) (h : driven cfg env k j m = .done rsp) (failed : rsp.status ≠ .ok) :
    drivenReads cfg env k j m := by
  induction k generalizing j m with
  | zero => trivial
  | succ k ih =>
    refine ⟨microStep_of_untested cfg m (env j) (untested_of_driven cfg env _ j m rsp h failed), ?_⟩
    rw [driven] at h
    cases hm : (microStep cfg m (env j)).2 with
    | go m' => rw [hm] at h; exact ih (j + 1) m' h
    | done rsp' => trivial

theorem exec_failed_planner (i : Instr) (s t : State) (rsp : Response) (h : exec i s = .next t)
    (answer : t.rsp s.port = some rsp) (failed : rsp.status ≠ .ok) : t.planner = s.planner := by
  obtain ⟨-, kept⟩ | ⟨rfl, performed⟩ := exec_answered i s t rsp h answer
  · exact kept
  · rw [performed]; exact rule_of_not_ok i s.planner failed

/-- Settles O43: every command tests before it writes. -/
theorem failedCommandsWriteNoRegister : Obligations.FailedCommandsWriteNoRegister :=
  ⟨exec_failed_planner, fun cfg env _ m k rsp _ => drivenReads_of_failed cfg env k 0 m rsp⟩

end Sys2Proof.Machine
end

section
/-! SUPPORT. Each agent writes its own registers (spec/60_exceptions.md R169, spec/10_state.md R41): which
registers a command's micro-steps leave, so that the whole command leaves them too, and which slots it writes. -/

namespace Sys2Proof.Machine

/-! ### The registers by who writes them (60_exceptions.md R169) -/

/-- The registers that no command but INIT writes (R21 to R23). -/
def Planner.initOnly (r : Planner) : Word × Word × Word := (r.position, r.velocity, r.remainder)

/-- The consumer's registers, its slots' counts apart. -/
def Planner.consumerSide (r : Planner) : Word × Word × Bool × Word × SlotIx :=
  (r.currC, r.endC, r.accel, r.accelPerTick, r.head)

/-- The producer's registers, its slots' counts apart. -/
def Planner.producerSide (r : Planner) : SlotIx × Word × Vector Word 4 := (r.tail, r.planC, r.nextDc)

theorem initOnly_eq_iff (r r' : Planner) :
    r'.initOnly = r.initOnly ↔
      r'.position = r.position ∧ r'.velocity = r.velocity ∧ r'.remainder = r.remainder := by
  simp only [Planner.initOnly, Prod.mk.injEq]

theorem consumerSide_eq_iff (r r' : Planner) :
    r'.consumerSide = r.consumerSide ↔
      r'.currC = r.currC ∧ r'.endC = r.endC ∧ r'.accel = r.accel ∧
      r'.accelPerTick = r.accelPerTick ∧ r'.head = r.head := by
  simp only [Planner.consumerSide, Prod.mk.injEq]

theorem producerSide_eq_iff (r r' : Planner) :
    r'.producerSide = r.producerSide ↔
      r'.tail = r.tail ∧ r'.planC = r.planC ∧ r'.nextDc = r.nextDc := by
  simp only [Planner.producerSide, Prod.mk.injEq]

theorem microStep_initOnly (cfg : Config) (m : Micro) (r : Planner) (notInit : m.isInit = false) :
    (microStep cfg m r).1.initOnly = r.initOnly := by
  cases m
  case i1 | i2 | i3 | i4 | i5 => cases notInit
  case g7 => simp only [microStep]; split <;> rfl
  all_goals rfl

theorem microStep_onP_consumerSide (cfg : Config) (m : Micro) (r : Planner) (onP : m.ofPort .P = true)
    (notInit : m.isInit = false) : (microStep cfg m r).1.consumerSide = r.consumerSide := by
  cases m
  case p0 | p1 | p2 | p3 | p4 | p5 | p6 | p7 | p8 | e1 | e2 | e3 | f1 | f2 | f3 => rfl
  case i1 | i2 | i3 | i4 | i5 => cases notInit
  all_goals cases onP

theorem microStep_onC_producerSide (cfg : Config) (m : Micro) (r : Planner)
    (onC : m.ofPort .C = true) : (microStep cfg m r).1.producerSide = r.producerSide := by
  cases m
  case i1 | i2 | i3 | i4 | i5 | p0 | p1 | p2 | p3 | p4 | p5 | p6 | p7 | p8 => cases onC
  case g7 => simp only [microStep]; split <;> rfl
  all_goals rfl

/-! ### From the micro-steps to the whole command (20_memory.md R62) -/

section
variable {α : Type} (view : Planner → α) (p : Port)
  (kept : ∀ m r, m.ofPort p = true → m.isInit = false →
    view (microStep Config.platform m r).1 = view r)
include kept

/-- What each micro-step of a port's commands leaves, the command leaves. -/
theorem runMicro_keeps (k : Nat) (m : Micro) (r : Planner) (onPort : m.ofPort p = true)
    (notInit : m.isInit = false) : view (runMicro Config.platform k m r).1 = view r := by
  induction k generalizing m r with
  | zero => rfl
  | succ k ih =>
    have first := kept m r onPort notInit
    rw [runMicro]
    cases hm : (microStep Config.platform m r).2 with
    | go m' =>
      have others := ih m' (microStep Config.platform m r).1
        ((ofPort_go _ p m m' r hm).trans onPort) ((isInit_go _ m m' r hm).trans notInit)
      exact others.trans first
    | done rsp => exact first

theorem exec_keeps (i : Instr) (s t : State) (onPort : s.port = p) (notInit : i ≠ .init)
    (h : exec i s = .next t) : view t.planner = view s.planner := by
  obtain same | ⟨m, first, accepted, performed⟩ := exec_planner i s t h
  · rw [same]
  · rw [performed]
    exact runMicro_keeps view p kept 14 m s.planner
      ((ofPort_first i m p first).trans (onPort ▸ accepted))
      ((first_isInit i m first).trans (isInit_of_ne i notInit))

end

/-! ### The slots (60_exceptions.md R169, 20_memory.md R60) -/

/-- From the registers `r` to `r'` no slot changes but the one `tail` names, and that one only while it is
free. -/
def FillsFreeTail (r r' : Planner) : Prop :=
  ∀ i : SlotIx, (r'.nextDc[i] ≠ r.nextDc[i] ∨ r'.nextN[i] ≠ r.nextN[i]) →
    i = r.tail ∧ r.nextN[i] = 0

/-- From the registers `r` to `r'` no count changes but that of the slot `head` names, by one step less. -/
def TakesOneOffHead (r r' : Planner) : Prop :=
  ∀ i : SlotIx, r'.nextN[i] ≠ r.nextN[i] →
    i = r.head ∧ r'.nextN[i].toNat + 1 = r.nextN[i].toNat

section
variable {r r' : Planner}

theorem fillsFreeTail_of_same (nextN : r'.nextN = r.nextN) (nextDc : r'.nextDc = r.nextDc) :
    FillsFreeTail r r' := fun i changed => by
  rw [nextN, nextDc] at changed
  exact absurd changed (by simp)

theorem fillsFreeTail_of_filled (free : r.nextN[r.tail] = 0)
    (others : ∀ i : SlotIx, r.tail ≠ i → r'.nextN[i] = r.nextN[i] ∧ r'.nextDc[i] = r.nextDc[i]) :
    FillsFreeTail r r' := fun i changed => by
  by_cases same : r.tail = i
  · subst same; exact ⟨rfl, free⟩
  · obtain ⟨nextN, nextDc⟩ := others i same
    rw [nextN, nextDc] at changed
    exact absurd changed (by simp)

theorem takesOneOffHead_of_same (nextN : r'.nextN = r.nextN) : TakesOneOffHead r r' :=
  fun i changed => absurd (by rw [nextN]) changed

theorem takesOneOffHead_of_consumed (h : SlotIx) (atHead : h = r.head) (live : r.nextN[h] ≠ 0)
    (nextN : r'.nextN = r.nextN.set h (r.nextN[h] - 1)) : TakesOneOffHead r r' := fun i changed => by
  rw [nextN] at changed ⊢
  by_cases same : h = i
  · subst same
    refine ⟨atHead, ?_⟩
    rw [slot_set_self]
    bv_omega
  · exact absurd (slot_set_ne r.nextN h i _ same) changed

end

/-- Of the producer's micro-steps, P4 and P5 write a slot, the one that P2 found free. -/
theorem microStep_fillsFreeTail (cfg : Config) (m : Micro) (r : Planner) (onP : m.ofPort .P = true)
    (notInit : m.isInit = false) (knows : producerKnows r m) :
    FillsFreeTail r (microStep cfg m r).1 := by
  cases m
  case p4 =>
    obtain ⟨-, rfl, free, -⟩ := knows
    exact fillsFreeTail_of_filled free fun i other => ⟨rfl, slot_set_ne _ _ i _ other⟩
  case p5 =>
    obtain ⟨-, rfl, free, -⟩ := knows
    exact fillsFreeTail_of_filled free fun i other => ⟨slot_set_ne _ _ i _ other, rfl⟩
  case p0 | p1 | p2 | p3 | p6 | p7 | p8 | e1 | e2 | e3 | f1 | f2 | f3 =>
    exact fillsFreeTail_of_same rfl rfl
  case i1 | i2 | i3 | i4 | i5 => cases notInit
  all_goals cases onP

/-- Of the consumer's micro-steps, G7 and G8 write a count: one less than the one G2 read. -/
theorem microStep_takesOneOffHead (cfg : Config) (m : Micro) (r : Planner)
    (onC : m.ofPort .C = true) (knows : consumerKnows r m) :
    TakesOneOffHead r (microStep cfg m r).1 := by
  obtain same | ⟨n, v, t, p, rfl, -⟩ | ⟨l, rfl, written⟩ | ⟨l, rfl, written⟩ :=
    microStep_nextN cfg m r (isInit_of_ofPort_C m onC)
  · exact takesOneOffHead_of_same same
  · cases onC
  · obtain ⟨atHead, count, live⟩ := knows
    rw [← count] at written live
    exact takesOneOffHead_of_consumed l.h atHead live written
  · obtain ⟨atHead, one⟩ := knows
    refine takesOneOffHead_of_consumed l.h atHead (ne_of_eq_of_ne one (by decide)) ?_
    rw [written, one]; rfl

theorem put_fillsFreeTail (steps speed : Word) (r : Planner) :
    FillsFreeTail r (r.put steps speed).1 := by
  by_cases zero : steps = 0
  · rw [zero, put_of_zero]; exact fillsFreeTail_of_same rfl rfl
  by_cases free : r.nextN[r.tail] = 0
  · rw [put_of_free _ _ _ zero free]
    exact fillsFreeTail_of_filled free fun i other =>
      ⟨slot_set_ne _ _ i _ other, slot_set_ne _ _ i _ other⟩
  · rw [put_of_full _ _ _ zero free]; exact fillsFreeTail_of_same rfl rfl

theorem get_takesOneOffHead (cfg : Config) (clip : Bool) (r : Planner) :
    TakesOneOffHead r (r.get cfg clip).1 := by
  by_cases empty : r.nextN[r.head] = 0
  · rw [get_of_empty cfg clip r empty]; exact takesOneOffHead_of_same rfl
  · exact takesOneOffHead_of_consumed r.head rfl empty (get_nextN cfg clip r empty)

theorem rule_fillsFreeTail (i : Instr) (r : Planner) (notInit : i ≠ .init)
    (onP : acceptedOn i .P = true) : FillsFreeTail r (ruleOf i r).1 := by
  cases i with
  | init => exact absurd rfl notInit
  | put steps speed => exact put_fillsFreeTail steps speed r
  | full | empty => exact fillsFreeTail_of_same rfl rfl
  | get | beginDda | reserved0 | reserved7 | reserved8toF => cases onP

theorem rule_takesOneOffHead (i : Instr) (r : Planner) (onC : acceptedOn i .C = true) :
    TakesOneOffHead r (ruleOf i r).1 := by
  cases i with
  | get clip => exact get_takesOneOffHead _ clip r
  | beginDda target => exact takesOneOffHead_of_same (beginDda_nextN target r)
  | full | empty => exact takesOneOffHead_of_same rfl
  | init | put | reserved0 | reserved7 | reserved8toF => cases onC

/-- A whole command writes no register, or its port accepts it and its rule is performed. -/
theorem exec_rule_planner (i : Instr) (s t : State) (h : exec i s = .next t) :
    t.planner = s.planner ∨
      (acceptedOn i s.port = true ∧ t.planner = (ruleOf i s.planner).1) := by
  obtain ⟨-, rfl⟩ | ⟨accept, rfl⟩ := exec_by_rule i s t h
  · exact .inl (answer_planner _ _ _)
  · exact .inr ⟨(takes_of_accept s _ i accept).accepted, complete_planner _ _ _ _ _⟩

theorem exec_fillsFreeTail (i : Instr) (s t : State) (onP : s.port = .P) (notInit : i ≠ .init)
    (h : exec i s = .next t) : FillsFreeTail s.planner t.planner := by
  obtain same | ⟨accepted, performed⟩ := exec_rule_planner i s t h
  · rw [same]; exact fillsFreeTail_of_same rfl rfl
  · rw [performed]; exact rule_fillsFreeTail i s.planner notInit (onP ▸ accepted)

theorem exec_takesOneOffHead (i : Instr) (s t : State) (onC : s.port = .C)
    (h : exec i s = .next t) : TakesOneOffHead s.planner t.planner := by
  obtain same | ⟨accepted, performed⟩ := exec_rule_planner i s t h
  · rw [same]; exact takesOneOffHead_of_same rfl
  · rw [performed]; exact rule_takesOneOffHead i s.planner (onC ▸ accepted)

/-! ### Each agent's micro-steps and commands (60_exceptions.md R169) -/

/-- Settles O42: the micro-steps' registers, their slots where the ring invariant says what their agent
knows, and the whole commands. -/
theorem eachAgentWritesItsOwnRegisters : Obligations.EachAgentWritesItsOwnRegisters := by
  refine ⟨fun cfg m r notInit => ?_, fun s m i inv => ⟨fun hm notInit => ?_, fun hm => ?_⟩,
    fun i s t notInit h => ?_⟩
  · obtain ⟨position, velocity, remainder⟩ :=
      (initOnly_eq_iff _ _).mp (microStep_initOnly cfg m r notInit)
    exact ⟨position, velocity, remainder,
      fun onP => (consumerSide_eq_iff _ _).mp (microStep_onP_consumerSide cfg m r onP notInit),
      fun onC => (producerSide_eq_iff _ _).mp (microStep_onC_producerSide cfg m r onC)⟩
  · have slots :=
      microStep_fillsFreeTail Config.platform m s.planner (inv.portP m hm) notInit (inv.producer m hm) i
    exact ⟨fun delta => slots (.inl delta), fun count => slots (.inr count)⟩
  · exact microStep_takesOneOffHead Config.platform m s.planner (inv.portC m hm) (inv.consumer m hm) i
  · obtain ⟨position, velocity, remainder⟩ := (initOnly_eq_iff _ _).mp
      (exec_keeps Planner.initOnly s.port (fun m r _ => microStep_initOnly _ m r) i s t rfl notInit h)
    refine ⟨position, velocity, remainder, fun onP => ?_, fun onC => ?_⟩
    · obtain ⟨currC, endC, accel, accelPerTick, head⟩ := (consumerSide_eq_iff _ _).mp
        (exec_keeps Planner.consumerSide .P (microStep_onP_consumerSide _) i s t onP notInit h)
      exact ⟨currC, endC, accel, accelPerTick, head, exec_fillsFreeTail i s t onP notInit h⟩
    · obtain ⟨tail, planC, nextDc⟩ := (producerSide_eq_iff _ _).mp
        (exec_keeps Planner.producerSide .C
          (fun m r onC _ => microStep_onC_producerSide _ m r onC) i s t onC notInit h)
      exact ⟨tail, planC, nextDc, exec_takesOneOffHead i s t onC h⟩

end Sys2Proof.Machine
end

section
/-! SUPPORT. The statements of spec/70_reset_and_hazards.md: what reset is (R181), and the runs that breach the
contract of the two agents, refused by name: a command before the first INIT (R184), an overlap of INIT (R186)
and a second transaction (R187). -/

namespace Sys2Proof.Machine

/-! ### Reset (70_reset_and_hazards.md R181) -/

/-- Settles O14: the power-on state is quiet, so what INIT leaves of it is known field by field. -/
theorem resetIsInitFromPowerOn : Obligations.ResetIsInitFromPowerOn :=
  exec_init_of_quiet State.powerOn rfl powerOn_quiet

/-! ### A refused command -/

/-- A command whose word is refused on its port is refused for that reason, reserved codes included. -/
theorem exec_of_refuse (i : Instr) (s : State) (r : Refusal) (h : s.admission s.port i = .refuse r) :
    exec i s = .refused r :=
  (exec_eq_perform i s).trans (perform_of_refuse s i (ruleOf i) r h)

/-! ### The checks that refuse a word, in their order (30_encoding.md R75; log 9) -/

section
variable (s : State) (p : Port) (i : Instr)

/-- The first check: nothing about the command is asked on a busy port. -/
theorem admission_of_busy (busy : s.busy p = true) : s.admission p i = .refuse .portBusy :=
  if_pos busy

/-- On a free port that takes it, only INIT asks what the other port is doing. -/
theorem admission_init_of_flightC (free : s.busy .P = false) (overlap : s.flightC ≠ none) :
    s.admission .P .init = .refuse .initOverlap := by
  have inFlight : s.flightC.isSome = true := Option.isSome_iff_ne_none.mpr overlap
  simp only [State.admission, free, acceptedOn, isInit, inFlight, Bool.not_true, Bool.false_eq_true,
    if_false, if_true]

theorem admission_of_not_inited (free : s.busy p = false) (accepted : acceptedOn i p = true)
    (notInit : isInit i = false) (uninited : s.inited = false) :
    s.admission p i = .refuse .beforeFirstInit := by
  simp only [State.admission, free, accepted, notInit, uninited, Bool.not_true, Bool.not_false,
    Bool.false_eq_true, if_false, if_true]

theorem admission_of_initInFlight (free : s.busy p = false) (accepted : acceptedOn i p = true)
    (notInit : isInit i = false) (inited : s.inited = true) (overlap : s.initInFlight = true) :
    s.admission p i = .refuse .initOverlap := by
  simp only [State.admission, free, accepted, notInit, inited, overlap, Bool.not_true,
    Bool.false_eq_true, if_false, if_true]

end

/-! ### The contract of INIT (70_reset_and_hazards.md R184, R186) -/

/-- Port C takes no INIT (30_encoding.md R73). -/
theorem isInit_of_acceptedOn_C (i : Instr) (accepted : acceptedOn i .C = true) : isInit i = false :=
  isInit_of_ne i fun init => by rw [init] at accepted; cases accepted

/-- Settles O16: on a free port that takes the command, the next check is for the first INIT. -/
theorem beforeFirstInitCommandsAreRefused : Obligations.BeforeFirstInitCommandsAreRefused :=
  fun i s uninited free notInit accepted => exec_of_refuse i s _
    (admission_of_not_inited s s.port i free accepted (isInit_of_ne i notInit) uninited)

/-- Settles O17: in both clauses the command's own port is idle and takes it, and the other port's
transaction is what refuses it. -/
theorem overlapsOfInitAreRefused : Obligations.OverlapsOfInitAreRefused := by
  refine ⟨fun i s onC idle inited overlap accepted => ?_, fun s onP idle noFill overlap => ?_⟩
  · have free : s.busy .C = false := busy_of_idleOn s .C ⟨idle, nofun⟩
    refine exec_of_refuse i s _ ?_
    rw [onC]
    exact admission_of_initInFlight s .C i free accepted (isInit_of_acceptedOn_C i accepted) inited
      overlap
  · have free : s.busy .P = false := busy_of_idleOn s .P ⟨idle, fun _ => noFill⟩
    refine exec_of_refuse .init s _ ?_
    rw [onP]
    exact admission_init_of_flightC s free overlap

/-! ### One transaction on each port (70_reset_and_hazards.md R187) -/

theorem busy_P_iff (s : State) : s.busy .P = true ↔ s.flightP ≠ none ∨ s.fill ≠ none := by
  simp only [State.busy, Bool.or_eq_true, Option.isSome_iff_ne_none]

theorem busy_C_iff (s : State) : s.busy .C = true ↔ s.flightC ≠ none :=
  Option.isSome_iff_ne_none

/-- Settles O18: both clauses are the first check, on a busy port. -/
theorem secondTransactionsAreRefused : Obligations.SecondTransactionsAreRefused := by
  refine fun i s => ⟨fun onP inFlight => ?_, fun onC inFlight => ?_⟩
  · have busy : s.busy s.port = true := by rw [onP]; exact (busy_P_iff s).mpr inFlight
    exact exec_of_refuse i s _ (admission_of_busy s s.port i busy)
  · have busy : s.busy s.port = true := by rw [onC]; exact (busy_C_iff s).mpr inFlight
    exact exec_of_refuse i s _ (admission_of_busy s s.port i busy)

end Sys2Proof.Machine
end
